-- ==== Sys2Proof/Word.lean ====
section
/-! DEFINITION. The machine's words: bytes, bus addresses, transaction words, and the names of the six regions. -/

namespace Sys2Proof

/-- A bus datum, `DATA_W` = 8 bits (00_scope.md R8). -/
abbrev Byte := BitVec 8

/-- A bus address, `ADDR_W` = 16 bits, unsigned (00_scope.md R8, 20_memory.md R51). -/
abbrev Addr := BitVec 16

/-- A transaction word of format T, 25 bits (30_encoding.md R81). -/
abbrev TWord := BitVec 25

/-- The plain-data carrier of a device's own state, `DState` of 45_device_capability.md R195.
The spec leaves the type open; any device with countably many states can be coded in it (log 5). -/
abbrev DState := List Nat

/-- The plain-data carrier of a mapper's own state, `MState` of 44_mapper_capability.md R180 (log 5). -/
abbrev MState := List Nat

/-- Names a cartridge the host may load; `Params.mapper` gives its mapper model (log 6). -/
abbrev CartId := Nat

/-- The closed type of the six regions (40_address_decoder.md R111, R115): there is no seventh. -/
inductive Region
  | systemRAM
  | pictureUnitRegisters
  | audioAndIORegisters
  | expansionROM
  | saveRAM
  | cartridgeSpace
  deriving DecidableEq, Repr

/-- The three byte stores the Bus owns (10_state.md R21 to R23). -/
inductive StoreId
  | ram
  | exp
  | sram
  deriving DecidableEq, Repr

/-- The two device ports (10_state.md R26 to R28). -/
inductive DevId
  | ppu
  | aio
  deriving DecidableEq, Repr

end Sys2Proof
end

