-- ==== Sys2Proof/Machine/AddressMap.lean ====
section
/-! DEFINITION. The region table (20_memory.md R52 to R57) and the AddressDecoder component
(40_address_decoder.md R110 to R119): pure functions of an address and the constant table. -/

namespace Sys2Proof.Machine

/-- First address of a region's window (00_scope.md R8; 20_memory.md R52 to R57). -/
def regionBase : Region → Addr
  | .systemRAM => 0x0000
  | .pictureUnitRegisters => 0x2000
  | .audioAndIORegisters => 0x4000
  | .expansionROM => 0x4020
  | .saveRAM => 0x6000
  | .cartridgeSpace => 0x8000

/-- Number of addresses in a region's window (R52 to R57). -/
def regionSize : Region → Nat
  | .systemRAM => 0x2000
  | .pictureUnitRegisters => 0x2000
  | .audioAndIORegisters => 0x0020
  | .expansionROM => 0x1FE0
  | .saveRAM => 0x2000
  | .cartridgeSpace => 0x8000

/-- Mirror period of a region; 0 means no mirroring (R52 to R57, decision D4). -/
def regionPeriod : Region → Addr
  | .systemRAM => 0x0800
  | .pictureUnitRegisters => 0x0008
  | .audioAndIORegisters => 0
  | .expansionROM => 0
  | .saveRAM => 0
  | .cartridgeSpace => 0

/-- Is the address in the region's window? Both ends belong to it (90_conflicts.md C2). -/
def inWindow (r : Region) (a : Addr) : Bool :=
  decide ((regionBase r).toNat ≤ a.toNat ∧ a.toNat < (regionBase r).toNat + regionSize r)

/-- `Decode` (R111): the region whose window holds the address, and the offset in it, not yet reduced
by the mirror period (R112). -/
def decodeAddress (a : Addr) : Region × Addr :=
  if a ≤ 0x1FFF then (.systemRAM, a - 0x0000)
  else if a ≤ 0x3FFF then (.pictureUnitRegisters, a - 0x2000)
  else if a ≤ 0x401F then (.audioAndIORegisters, a - 0x4000)
  else if a ≤ 0x5FFF then (.expansionROM, a - 0x4020)
  else if a ≤ 0x7FFF then (.saveRAM, a - 0x6000)
  else (.cartridgeSpace, a - 0x8000)

/-- The six select terms on address bits (30_encoding.md R87). -/
def selects (r : Region) (a : Addr) : Bool :=
  match r with
  | .systemRAM => a.extractLsb' 13 3 == 0b000
  | .pictureUnitRegisters => a.extractLsb' 13 3 == 0b001
  | .audioAndIORegisters => a.extractLsb' 5 11 == 0b01000000000
  | .expansionROM => a.extractLsb' 13 3 == 0b010 && a.extractLsb' 5 8 != 0
  | .saveRAM => a.extractLsb' 13 3 == 0b011
  | .cartridgeSpace => a.extractLsb' 15 1 == 1

/-- `Reduce` (R117), and the index arithmetic of 43_mirrored_register.md R171: the offset modulo the
period, the identity for period 0. -/
def reduceOffset (off period : Addr) : Addr :=
  if period = 0 then off else off % period

/-- `DevOffset` (R117): the reduced offset as the u8 a device receives. -/
def devOffset (r : Region) (off : Addr) : Byte :=
  (reduceOffset off (regionPeriod r)).setWidth 8

end Sys2Proof.Machine
end

