-- ==== Sys2Proof/Syntax.lean ====
section
/-! DEFINITION. The twelve instructions of the block (30_encoding.md R86).
The 26 rows of spec/opcode_table.json are match/mask covers of these twelve (R95): the eight rows of
`RD.EXP` and the eight of `WR.EXP` carry one mnemonic and one rule each, so each is one constructor. -/

namespace Sys2Proof

/-- A transaction with its region named. `addr` is the full 16-bit bus address `A` (R81); `data` is the
byte to write. A read has no data operand: the data field of its word is ignored (R82). -/
inductive Instr
  | rdRam (addr : Addr)                -- RD.RAM, 41_bus_read.md R132
  | rdPpu (addr : Addr)                -- RD.PPU, R133
  | rdAio (addr : Addr)                -- RD.AIO, R134
  | rdExp (addr : Addr)                -- RD.EXP, R135
  | rdSram (addr : Addr)               -- RD.SRAM, R136
  | rdCart (addr : Addr)               -- RD.CART, R137
  | wrRam (addr : Addr) (data : Byte)  -- WR.RAM, 42_bus_write.md R152
  | wrPpu (addr : Addr) (data : Byte)  -- WR.PPU, R153
  | wrAio (addr : Addr) (data : Byte)  -- WR.AIO, R154
  | wrExp (addr : Addr) (data : Byte)  -- WR.EXP, R155
  | wrSram (addr : Addr) (data : Byte) -- WR.SRAM, R156
  | wrCart (addr : Addr) (data : Byte) -- WR.CART, R157
  deriving DecidableEq, Repr

end Sys2Proof
end

