-- ==== Sys2Proof/WellFormed.lean ====
section
/-! DEFINITION. When an instruction is one a transaction word can stand for: its address lies in the
window of the region its mnemonic names (30_encoding.md R86, R100). -/

namespace Sys2Proof

/-- The region an instruction's mnemonic names (30_encoding.md R86). -/
def Instr.region : Instr → Region
  | .rdRam _ => .systemRAM
  | .rdPpu _ => .pictureUnitRegisters
  | .rdAio _ => .audioAndIORegisters
  | .rdExp _ => .expansionROM
  | .rdSram _ => .saveRAM
  | .rdCart _ => .cartridgeSpace
  | .wrRam _ _ => .systemRAM
  | .wrPpu _ _ => .pictureUnitRegisters
  | .wrAio _ _ => .audioAndIORegisters
  | .wrExp _ _ => .expansionROM
  | .wrSram _ _ => .saveRAM
  | .wrCart _ _ => .cartridgeSpace

/-- The `op` bit of an instruction: 0 for `RD`, 1 for `WR` (R81). -/
def Instr.op : Instr → BitVec 1
  | .rdRam _ => 0
  | .rdPpu _ => 0
  | .rdAio _ => 0
  | .rdExp _ => 0
  | .rdSram _ => 0
  | .rdCart _ => 0
  | .wrRam _ _ => 1
  | .wrPpu _ _ => 1
  | .wrAio _ _ => 1
  | .wrExp _ _ => 1
  | .wrSram _ _ => 1
  | .wrCart _ _ => 1

/-- The bus address `A` of an instruction. -/
def Instr.addr : Instr → Addr
  | .rdRam a => a
  | .rdPpu a => a
  | .rdAio a => a
  | .rdExp a => a
  | .rdSram a => a
  | .rdCart a => a
  | .wrRam a _ => a
  | .wrPpu a _ => a
  | .wrAio a _ => a
  | .wrExp a _ => a
  | .wrSram a _ => a
  | .wrCart a _ => a

/-- The data field of an instruction's canonical word: 0 for a read (R82). -/
def Instr.data : Instr → Byte
  | .rdRam _ => 0
  | .rdPpu _ => 0
  | .rdAio _ => 0
  | .rdExp _ => 0
  | .rdSram _ => 0
  | .rdCart _ => 0
  | .wrRam _ d => d
  | .wrPpu _ d => d
  | .wrAio _ d => d
  | .wrExp _ d => d
  | .wrSram _ d => d
  | .wrCart _ d => d

/-- The one check: the address is in the window of the named region ("`RD.RAM $2000` is an assembly
error, not a runtime one", R100). -/
def Instr.wf (i : Instr) : Bool := Machine.inWindow i.region i.addr

end Sys2Proof
end

