-- ==== Sys2Proof/Decode.lean ====
section
/-! DEFINITION. The decoder of format T (30_encoding.md R81 to R90), the encoder written from the same
layout, and spec/opcode_table.json as the rows of match and mask it is (R95). -/

namespace Sys2Proof

/-- `op`, bit 24 of a word (R81). -/
def wordOp (w : TWord) : BitVec 1 := w.extractLsb' 24 1

/-- `addr`, bits 23:8 of a word (R81). -/
def wordAddr (w : TWord) : Addr := w.extractLsb' 8 16

/-- `data`, bits 7:0 of a word (R81). -/
def wordData (w : TWord) : Byte := w.extractLsb' 0 8

/-- The word with the given fields, `op` highest (R81). -/
def assemble (op : BitVec 1) (a : Addr) (d : Byte) : TWord := op ++ a ++ d

/-- The `RD` instruction of a region (R86). -/
def rdInstr (r : Region) (a : Addr) : Instr :=
  match r with
  | .systemRAM => .rdRam a
  | .pictureUnitRegisters => .rdPpu a
  | .audioAndIORegisters => .rdAio a
  | .expansionROM => .rdExp a
  | .saveRAM => .rdSram a
  | .cartridgeSpace => .rdCart a

/-- The `WR` instruction of a region (R86). -/
def wrInstr (r : Region) (a : Addr) (d : Byte) : Instr :=
  match r with
  | .systemRAM => .wrRam a d
  | .pictureUnitRegisters => .wrPpu a d
  | .audioAndIORegisters => .wrAio a d
  | .expansionROM => .wrExp a d
  | .saveRAM => .wrSram a d
  | .cartridgeSpace => .wrCart a d

/-- The instruction a word stands for. Total: every one of the 2^25 words is legal (R89). The operation
is the `op` bit; the region is found from the address (R86). -/
def decode (w : TWord) : Instr :=
  if wordOp w = 0 then rdInstr (Machine.decodeAddress (wordAddr w)).1 (wordAddr w)
  else wrInstr (Machine.decodeAddress (wordAddr w)).1 (wordAddr w) (wordData w)

/-- Why a bit string is no transaction word. Raised by `decodeBits` on more than 25 bits; safe. -/
inductive DecodeError
  | notFormatT
  deriving DecidableEq, Repr

/-- Decoding of an arbitrary bit string, read as a number: format T has 25 bits (R80, R81), so a longer
one is rejected by name. -/
def decodeBits (w : Nat) : Except DecodeError Instr :=
  if w < 2 ^ 25 then .ok (decode (BitVec.ofNat 25 w)) else .error .notFormatT

/-- The instruction the decoder reads from bits numbered as spec/opcode_table.json numbers them. A word
of format T is the whole instruction, so no bit stands above the table's width. -/
def decodeTableWord (_nbits w : Nat) : Option Instr :=
  match decodeBits w with
  | .ok i => some i
  | .error _ => none

/-- The canonical word of an instruction: `data` is 0 in a read (R82). -/
def encode : Instr → TWord
  | .rdRam a => assemble 0 a 0
  | .rdPpu a => assemble 0 a 0
  | .rdAio a => assemble 0 a 0
  | .rdExp a => assemble 0 a 0
  | .rdSram a => assemble 0 a 0
  | .rdCart a => assemble 0 a 0
  | .wrRam a d => assemble 1 a d
  | .wrPpu a d => assemble 1 a d
  | .wrAio a d => assemble 1 a d
  | .wrExp a d => assemble 1 a d
  | .wrSram a d => assemble 1 a d
  | .wrCart a d => assemble 1 a d

/-- The mnemonic of an instruction as spec/opcode_table.json spells it. -/
def mnemonic : Instr → String
  | .rdRam _ => "RD.RAM"
  | .rdPpu _ => "RD.PPU"
  | .rdAio _ => "RD.AIO"
  | .rdExp _ => "RD.EXP"
  | .rdSram _ => "RD.SRAM"
  | .rdCart _ => "RD.CART"
  | .wrRam _ _ => "WR.RAM"
  | .wrPpu _ _ => "WR.PPU"
  | .wrAio _ _ => "WR.AIO"
  | .wrExp _ _ => "WR.EXP"
  | .wrSram _ _ => "WR.SRAM"
  | .wrCart _ _ => "WR.CART"

/-- One row of spec/opcode_table.json. -/
structure OpcodeRow where
  mnemonic : String
  mask : TWord
  pattern : TWord
  deriving DecidableEq, Repr

/-- A row matches a word `W` when `W & mask = match` (R95). -/
def rowMatches (row : OpcodeRow) (w : TWord) : Bool := w &&& row.mask == row.pattern

/-- The thirteen `RD` rows of spec/opcode_table.json, in its order. -/
def rdRows : List OpcodeRow :=
  [
    ⟨"RD.RAM", 0x1E00000, 0x0000000⟩,
    ⟨"RD.PPU", 0x1E00000, 0x0200000⟩,
    ⟨"RD.AIO", 0x1FFE000, 0x0400000⟩,
    ⟨"RD.EXP", 0x1FFE000, 0x0402000⟩,
    ⟨"RD.EXP", 0x1FFC000, 0x0404000⟩,
    ⟨"RD.EXP", 0x1FF8000, 0x0408000⟩,
    ⟨"RD.EXP", 0x1FF0000, 0x0410000⟩,
    ⟨"RD.EXP", 0x1FE0000, 0x0420000⟩,
    ⟨"RD.EXP", 0x1FC0000, 0x0440000⟩,
    ⟨"RD.EXP", 0x1F80000, 0x0480000⟩,
    ⟨"RD.EXP", 0x1F00000, 0x0500000⟩,
    ⟨"RD.SRAM", 0x1E00000, 0x0600000⟩,
    ⟨"RD.CART", 0x1800000, 0x0800000⟩
  ]

/-- The thirteen `WR` rows of spec/opcode_table.json, in its order. -/
def wrRows : List OpcodeRow :=
  [
    ⟨"WR.RAM", 0x1E00000, 0x1000000⟩,
    ⟨"WR.PPU", 0x1E00000, 0x1200000⟩,
    ⟨"WR.AIO", 0x1FFE000, 0x1400000⟩,
    ⟨"WR.EXP", 0x1FFE000, 0x1402000⟩,
    ⟨"WR.EXP", 0x1FFC000, 0x1404000⟩,
    ⟨"WR.EXP", 0x1FF8000, 0x1408000⟩,
    ⟨"WR.EXP", 0x1FF0000, 0x1410000⟩,
    ⟨"WR.EXP", 0x1FE0000, 0x1420000⟩,
    ⟨"WR.EXP", 0x1FC0000, 0x1440000⟩,
    ⟨"WR.EXP", 0x1F80000, 0x1480000⟩,
    ⟨"WR.EXP", 0x1F00000, 0x1500000⟩,
    ⟨"WR.SRAM", 0x1E00000, 0x1600000⟩,
    ⟨"WR.CART", 0x1800000, 0x1800000⟩
  ]

/-- The 26 rows (R95). -/
def opcodeRows : List OpcodeRow := rdRows ++ wrRows

end Sys2Proof
end

