-- ==== Sys2Proof/Config.lean ====
section
/-! DEFINITION. The parameters of the block: what 00_scope.md R9 decides and what R10 leaves open.
The open ones are opaque constants with no body: no proof can see a value of one. -/

namespace Sys2Proof

/-- `OPEN_BUS_POLICY` (00_scope.md R9, 41_bus_read.md R139). -/
inductive OpenBusPolicy
  | fixed
  | lastDriven
  deriving DecidableEq, Repr

/-- A device model (45_device_capability.md R195). A device sees its own state and the offset only,
so it cannot call back into the block (R201). -/
structure DeviceModel where
  /-- The device's state at construction. -/
  d0 : DState
  /-- `ReadRegister` (R196): the byte the master will see, and the device's next state. -/
  readRegister : DState → Byte → Byte × DState
  /-- `WriteRegister` (R197): the device's next state. -/
  writeRegister : DState → Byte → Byte → DState
  /-- `Env` (46_host_operations.md R214): may the device change from the first state to the second
  between two transactions? -/
  env : DState → DState → Bool
  deriving Inhabited

/-- What `Translate` answers (44_mapper_capability.md R181): byte `off` of storage `sid`, and whether
a write may land there. The offset is an unbounded number (R187). -/
structure Translation where
  sid : Nat
  off : Nat
  writable : Bool
  deriving DecidableEq, Repr, Inhabited

/-- A mapper model (44_mapper_capability.md R180). The cartridge's storages are numbered
`0 .. storages - 1`: the finite set `StorageId`. -/
structure MapperModel where
  storages : Nat
  size : Nat → Nat
  /-- `Translate` (R181), a query: it returns no next state (R182). -/
  translate : MState → Addr → Translation
  /-- `ObserveWrite` (R184). -/
  observeWrite : MState → Addr → Byte → MState
  m0 : MState
  /-- `stor0`: byte `o` of storage `sid` when the mapper is bound. -/
  stor0 : Nat → Nat → Byte
  deriving Inhabited

/-- All parameters of the block (00_scope.md R9, R10). Every operation of the machine takes them as an
argument; the machine itself is the one with `Config.params`. -/
structure Params where
  openBusPolicy : OpenBusPolicy
  openBusValue : Byte
  ppuBound : Bool
  aioBound : Bool
  initRam : Nat → Byte
  initExp : Nat → Byte
  initSram : Nat → Byte
  initLatch : Byte
  ppuDev : DeviceModel
  aioDev : DeviceModel
  mapper : CartId → MapperModel

namespace Config

/-- `OPEN_BUS_VALUE` (R10, 92_eei_decisions.md D6): open, a free value (log 2). -/
opaque openBusValue : Byte

/-- `INIT_RAM` (R10, D18): open, a free value (log 3). -/
opaque initRam : Nat → Byte

/-- `INIT_EXP` (R10, D18): open, a free value (log 3). -/
opaque initExp : Nat → Byte

/-- `INIT_SRAM` (R10, D18): open, a free value (log 3). -/
opaque initSram : Nat → Byte

/-- `INIT_LATCH` (R10, D18): open, a free value (log 3). -/
opaque initLatch : Byte

/-- `PpuDev` (R10, D9): open, a free device (log 4). -/
opaque ppuDev : DeviceModel

/-- `AioDev` (R10, D9): open, a free device (log 4). -/
opaque aioDev : DeviceModel

/-- The mapper models the host may bind (R10, D14): open, a free mapper for every name (log 6). -/
opaque mapper : CartId → MapperModel

/-- The parameters of the specified hardware: the values 00_scope.md R9 decides, `FIXED` and both
devices bound, and the open constants. -/
def params : Params where
  openBusPolicy := .fixed
  openBusValue := openBusValue
  ppuBound := true
  aioBound := true
  initRam := initRam
  initExp := initExp
  initSram := initSram
  initLatch := initLatch
  ppuDev := ppuDev
  aioDev := aioDev
  mapper := mapper

end Config

end Sys2Proof
end

