-- ==== Sys2Proof/Machine/Memory.lean ====
section
/-! DEFINITION. Byte arrays as sparse lists of cells in one canonical form: indexes strictly rising, and
no cell holding the byte an unlisted index reads as. `launch` gives that byte for every index: the
contents at construction (10_state.md R41), or a cartridge storage's `stor0` (R29). -/

namespace Sys2Proof.Machine

/-- A sparse byte array. -/
abbrev Memory := List Host.Cell

/-- The byte at an index: the cell's, or the launch byte where no cell is listed. Total: reading a byte
nothing has written is not a fault (10_state.md R41). -/
def Memory.read (launch : Nat → Byte) : Memory → Nat → Byte
  | [], k => launch k
  | c :: rest, k => if c.1 = k then c.2 else Memory.read launch rest k

/-- The array without its cells at an index. -/
def Memory.erase : Memory → Nat → Memory
  | [], _ => []
  | c :: rest, k => if c.1 = k then Memory.erase rest k else c :: Memory.erase rest k

/-- The array with a cell put before the first greater index. -/
def Memory.insert : Memory → Nat → Byte → Memory
  | [], k, v => [(k, v)]
  | c :: rest, k, v => if k < c.1 then (k, v) :: c :: rest else c :: Memory.insert rest k v

/-- The array with one byte set; setting the launch byte leaves no cell, so equal contents are equal
lists. -/
def Memory.write (launch : Nat → Byte) (m : Memory) (k : Nat) (v : Byte) : Memory :=
  if v = launch k then Memory.erase m k else Memory.insert (Memory.erase m k) k v

/-- The canonical form, for an array of `size` bytes. -/
abbrev Memory.wf (launch : Nat → Byte) (size : Nat) (m : Memory) : Prop :=
  List.Pairwise (fun c c' => c.1 < c'.1) m ∧ ∀ c ∈ m, c.1 < size ∧ c.2 ≠ launch c.1

end Sys2Proof.Machine
end

