-- ==== Sys2Proof/Machine/State.lean ====
section
/-! DEFINITION. The state of the block (10_state.md R20 to R42), its launch state (R41,
70_reset_and_hazards.md R250), and the reasons a step can stop. -/

namespace Sys2Proof.Machine

/-- `S.cart`, the cartridge as the block sees it (10_state.md R29). -/
structure Cart where
  /-- Which mapper model is behind the binding (R25). -/
  id : CartId
  /-- `S.cart.m`, the mapper's own state. -/
  m : MState
  /-- `S.cart.stor`, one byte array per storage, in the order of their numbers. -/
  stor : List Memory
  deriving DecidableEq, Repr

/-- Where the session stands (70_reset_and_hazards.md R252, 46_host_operations.md R212). -/
inductive Phase
  | beforeConstruct
  | live
  | tornDown
  deriving DecidableEq, Repr

/-- What master, host and environment can ask of the block (00_scope.md R19, 46_host_operations.md R215).
Each is one step, and none runs inside another (20_memory.md R64). -/
inductive Event
  /-- The master's `RD` or `WR`, as a word of format T (30_encoding.md R81). -/
  | transaction (w : TWord)
  /-- `CONSTRUCT`, with the mapper to bind, or none (70_reset_and_hazards.md R250). -/
  | construct (mp : Option CartId)
  /-- `LOAD_CARTRIDGE` (46_host_operations.md R210). -/
  | loadCartridge (mp : CartId)
  /-- `ENV_STEP`, with the device states the environment chose (R214). -/
  | envStep (ppu aio : DState)
  /-- `TEARDOWN` (R212). -/
  | teardown
  deriving DecidableEq, Repr

/-- The state `S` (10_state.md R20), and three fields of the model's own for the interfaces of a step. -/
structure State where
  /-- `S.ram`, the SystemRAM store (R21). -/
  ram : Memory
  /-- `S.exp`, the ExpansionROM store (R22). -/
  exp : Memory
  /-- `S.sram`, the SaveRAM store (R23). -/
  sram : Memory
  /-- `S.db_latch`, the last byte driven on the data bus (R24). -/
  dbLatch : Byte
  /-- `S.mapper_bound` (R25). -/
  mapperBound : Bool
  /-- `S.ppu`, the picture unit's state (R27). -/
  ppu : DState
  /-- `S.aio`, the audio/IO unit's state (R28). -/
  aio : DState
  /-- `S.cart` (R29); without meaning while no mapper is bound. -/
  cart : Cart
  /-- The model's own: where the session stands. -/
  phase : Phase
  /-- The model's own: what has been issued and not yet taken, oldest first (20_memory.md R66). -/
  inbox : List Event
  /-- The model's own: the response of the last transaction, `rdata` of 30_encoding.md R80; a write has
  none. -/
  rdata : Option Byte
  deriving DecidableEq, Repr

/-- The cartridge as it is when its mapper is bound: `(m = mp.m0, stor = mp.stor0)`
(46_host_operations.md R210). A storage with no cell listed reads as `stor0`. -/
def freshCart (P : Params) (mp : CartId) : Cart :=
  { id := mp, m := (P.mapper mp).m0, stor := List.replicate (P.mapper mp).storages [] }

/-- `S.cart` while no mapper is bound: no rule reads it (10_state.md R29). DESIGN CHOICE (log 8). -/
def noCart : Cart := { id := 0, m := [], stor := [] }

/-- The launch state: the state right after `CONSTRUCT` (70_reset_and_hazards.md R250, 10_state.md R41),
given `MAPPER_AT_CONSTRUCTION`. Stores with no cell listed read as their launch bytes. -/
def launch (P : Params) (mp : Option CartId) : State :=
  { ram := []
    exp := []
    sram := []
    dbLatch := P.initLatch
    mapperBound := mp.isSome
    ppu := P.ppuDev.d0
    aio := P.aioDev.d0
    cart := match mp with
      | some id => freshCart P id
      | none => noCart
    phase := .live
    inbox := []
    rdata := none }

/-- The machine right after reset: the launch with no mapper given. DESIGN CHOICE (log 7): the spec leaves
`MAPPER_AT_CONSTRUCTION` open, and a launch with one is this state after `LOAD_CARTRIDGE`. -/
def State.reset : State := launch Config.params none

/-- The model-level faults (60_exceptions.md R226). A fault is final. -/
inductive Fault
  /-- `Translate` named no byte of the cartridge. Raised by `RD.CART` and `WR.CART` with a mapper bound
  that breaks its obligation (44_mapper_capability.md R183). Safe: the spec gives no effect. -/
  | mapperContract
  /-- A local offset at or beyond its store's window (43_mirrored_register.md R174). Raised by the six
  store instructions on an address outside their region, which no word decodes to. Safe. -/
  | storeIndexAssert
  /-- The region named does not hold the address (60_exceptions.md R223). Raised by the device and
  cartridge instructions on an address outside their region, which no word decodes to. Safe. -/
  | decoderInconsistency
  deriving DecidableEq, Repr

/-- Inputs the model does not accept (93_implementation_defined.md, treatment `refuse`). -/
inductive Refusal
  /-- An instruction with no meaning yet; raised by no arm of `exec`. Safe. -/
  | notModelled (mnemonic : String)
  /-- Anything but `CONSTRUCT` before `CONSTRUCT` (U9). Raised by `fetch`. Safe. -/
  | beforeConstruct
  /-- A second `CONSTRUCT` without `TEARDOWN` (U9). Raised by `fetch`. Safe. -/
  | secondConstruct
  /-- Any step after `TEARDOWN` (46_host_operations.md R212). Raised by `fetch`. Safe. -/
  | afterTeardown
  /-- An `ENV_STEP` to device states the devices' `Env` does not allow (R214). Raised by `fetch`. Safe. -/
  | envNotAllowed
  deriving DecidableEq, Repr

/-- What a step of this machine answers. -/
abbrev Result := Host.Outcome State Fault Refusal

end Sys2Proof.Machine
end

