-- ==== Sys2Proof/Machine/Flags.lean ====
section
/-! DEFINITION. The block has no flag, condition code or status register (10_state.md R33, R34). What
every transaction sets in their place is here: the last-driven-byte latch (41_bus_read.md R140,
42_bus_write.md R160) and the response (30_encoding.md R80). -/

namespace Sys2Proof.Machine

/-- A read answered by a store, a device or a storage: the byte is driven and returned (R140). -/
def answer (v : Byte) (s : State) : State := { s with dbLatch := v, rdata := some v }

/-- `OpenBus` (41_bus_read.md R139), under either policy. -/
def openBus (P : Params) (s : State) : Byte :=
  match P.openBusPolicy with
  | .fixed => P.openBusValue
  | .lastDriven => s.dbLatch

/-- An unmapped read: the open-bus byte is returned, and the latch is left alone (R139, R140). -/
def answerOpenBus (P : Params) (s : State) : State := { s with rdata := some (openBus P s) }

/-- The end of every write: the master drove `d`, and nothing is returned (42_bus_write.md R160). -/
def drive (d : Byte) (s : State) : State := { s with dbLatch := d, rdata := none }

end Sys2Proof.Machine
end

