-- ==== Sys2Proof/Machine/Operands.lean ====
section
/-! DEFINITION. The operand forms: from the address of a transaction to the store index, the device offset
(30_encoding.md R88), or the mapper's argument, which is the whole address (44_mapper_capability.md R181). -/

namespace Sys2Proof.Machine

/-- `offset = A - base` (40_address_decoder.md R112). -/
def windowOffset (r : Region) (a : Addr) : Addr := a - regionBase r

/-- The region a store serves (10_state.md R21 to R23). -/
def storeRegion : StoreId → Region
  | .ram => .systemRAM
  | .exp => .expansionROM
  | .sram => .saveRAM

/-- Capacity of a store in bytes (43_mirrored_register.md R170). -/
def storeCap : StoreId → Nat
  | .ram => 0x0800
  | .exp => 0x1FE0
  | .sram => 0x2000

/-- `Index` (R171): the element a local offset names. -/
def storeIndex (σ : StoreId) (off : Addr) : Nat :=
  (reduceOffset off (regionPeriod (storeRegion σ))).toNat

/-- The region a device port serves (20_memory.md R53, R54). -/
def devRegion : DevId → Region
  | .ppu => .pictureUnitRegisters
  | .aio => .audioAndIORegisters

/-- The offset a device receives for an address (40_address_decoder.md R117). -/
def devOperand (δ : DevId) (a : Addr) : Byte := devOffset (devRegion δ) (windowOffset (devRegion δ) a)

end Sys2Proof.Machine
end

