-- ==== Sys2Proof/Machine/Ops.lean ====
section
/-! DEFINITION. The named operations on stores, device ports and the cartridge. The block takes no
exception and returns from none (60_exceptions.md R230, R231), so there is no exception entry here. -/

namespace Sys2Proof.Machine

/-! ### The three stores (43_mirrored_register.md) -/

/-- The launch contents of a store: `INIT_RAM`, `INIT_EXP`, `INIT_SRAM` (10_state.md R41). -/
def storeLaunch (P : Params) : StoreId → Nat → Byte
  | .ram => P.initRam
  | .exp => P.initExp
  | .sram => P.initSram

/-- The cells of a store. -/
def storeCells (s : State) : StoreId → Memory
  | .ram => s.ram
  | .exp => s.exp
  | .sram => s.sram

/-- The state with one store's cells replaced. -/
def withStore (s : State) (σ : StoreId) (m : Memory) : State :=
  match σ with
  | .ram => { s with ram := m }
  | .exp => { s with exp := m }
  | .sram => { s with sram := m }

/-- Element `i` of a store. -/
def storeByte (P : Params) (s : State) (σ : StoreId) (i : Nat) : Byte :=
  Memory.read (storeLaunch P σ) (storeCells s σ) i

/-- The state with element `i` of a store set. -/
def setStoreByte (P : Params) (s : State) (σ : StoreId) (i : Nat) (v : Byte) : State :=
  withStore s σ (Memory.write (storeLaunch P σ) (storeCells s σ) i v)

/-- Is a local offset inside the store's declared window? The component's assertion (R174). -/
def offsetInRange (σ : StoreId) (off : Addr) : Bool := decide (off.toNat < regionSize (storeRegion σ))

/-- `ReadAt` (R172); no byte where the assertion fails. -/
def readAt (P : Params) (s : State) (σ : StoreId) (off : Addr) : Option Byte :=
  if offsetInRange σ off then some (storeByte P s σ (storeIndex σ off)) else none

/-- `WriteAt` (R173); no state where the assertion fails. -/
def writeAt (P : Params) (s : State) (σ : StoreId) (off : Addr) (v : Byte) : Option State :=
  if offsetInRange σ off then some (setStoreByte P s σ (storeIndex σ off) v) else none

/-! ### The two device ports (45_device_capability.md) -/

/-- The model behind a port (R195). -/
def devModel (P : Params) : DevId → DeviceModel
  | .ppu => P.ppuDev
  | .aio => P.aioDev

/-- Is a device bound to the port? `PPU_BOUND`, `AIO_BOUND` (10_state.md R26). -/
def devBound (P : Params) : DevId → Bool
  | .ppu => P.ppuBound
  | .aio => P.aioBound

/-- The state of the device behind a port (10_state.md R27, R28). -/
def devState (s : State) : DevId → DState
  | .ppu => s.ppu
  | .aio => s.aio

/-- The state with one device's state replaced. -/
def withDevice (s : State) (δ : DevId) (x : DState) : State :=
  match δ with
  | .ppu => { s with ppu := x }
  | .aio => { s with aio := x }

/-- The one `ReadRegister` call of a device read (R196, R199): the byte, and the device's next state. -/
def callRead (P : Params) (s : State) (δ : DevId) (off : Byte) : Byte × DState :=
  (devModel P δ).readRegister (devState s δ) off

/-- The one `WriteRegister` call of a device write (R197, R199): the device's next state. -/
def callWrite (P : Params) (s : State) (δ : DevId) (off v : Byte) : DState :=
  (devModel P δ).writeRegister (devState s δ) off v

/-! ### The cartridge (44_mapper_capability.md) -/

/-- Byte `o` of storage `sid`: `S.cart.stor[sid][o]` (10_state.md R29). -/
def cartByte (P : Params) (c : Cart) (sid o : Nat) : Byte :=
  Memory.read ((P.mapper c.id).stor0 sid) (c.stor.getD sid []) o

/-- The cartridge with byte `o` of storage `sid` set. -/
def setCartByte (P : Params) (c : Cart) (sid o : Nat) (v : Byte) : Cart :=
  { c with stor := c.stor.set sid (Memory.write ((P.mapper c.id).stor0 sid) (c.stor.getD sid []) o v) }

/-- The `Translate` call on the cartridge's present mapper state (R181). -/
def callTranslate (P : Params) (c : Cart) (a : Addr) : Translation :=
  (P.mapper c.id).translate c.m a

/-- Does a translation name a byte of the cartridge? What R183 obliges the mapper to. -/
def namesByte (P : Params) (c : Cart) (t : Translation) : Bool :=
  decide (t.sid < c.stor.length ∧ t.off < (P.mapper c.id).size t.sid)

/-- The byte an address resolves to; none where the mapper breaks its contract (R183). -/
def resolve (P : Params) (c : Cart) (a : Addr) : Option Translation :=
  if namesByte P c (callTranslate P c a) then some (callTranslate P c a) else none

/-- The `ObserveWrite` call (R184): the mapper's state changes, no storage does. -/
def forward (P : Params) (c : Cart) (a : Addr) (d : Byte) : Cart :=
  { c with m := (P.mapper c.id).observeWrite c.m a d }

/-- The gated store of step 3 of `WR.CART` (42_bus_write.md R157). -/
def gatedStore (P : Params) (c : Cart) (t : Translation) (d : Byte) : Cart :=
  if t.writable then setCartByte P c t.sid t.off d else c

end Sys2Proof.Machine
end

