-- ==== Sys2Proof/Machine/BusRead.lean ====
section
/-! DEFINITION. The six read instructions (41_bus_read.md R130 to R143). -/

namespace Sys2Proof.Machine

/-- A read in a store region (R131): `ReadAt` on the store, and nothing else but the latch. -/
def readStore (P : Params) (σ : StoreId) (a : Addr) (s : State) : Result :=
  match readAt P s σ (windowOffset (storeRegion σ) a) with
  | some v => .next (answer v s)
  | none => .fault .storeIndexAssert

/-- A read in a device region (R133, R134): one `ReadRegister` call, or open bus with no device bound. -/
def readDevice (P : Params) (δ : DevId) (a : Addr) (s : State) : Result :=
  if inWindow (devRegion δ) a then
    if devBound P δ then
      .next (answer (callRead P s δ (devOperand δ a)).1
        (withDevice s δ (callRead P s δ (devOperand δ a)).2))
    else .next (answerOpenBus P s)
  else .fault .decoderInconsistency

/-- A read in CartridgeSpace (R137): the byte `Translate` names, or open bus with no mapper bound. The
mapper's state does not change (44_mapper_capability.md R182). -/
def readCart (P : Params) (a : Addr) (s : State) : Result :=
  if inWindow .cartridgeSpace a then
    if s.mapperBound then
      match resolve P s.cart a with
      | some t => .next (answer (cartByte P s.cart t.sid t.off) s)
      | none => .fault .mapperContract
    else .next (answerOpenBus P s)
  else .fault .decoderInconsistency

/-- `RD.RAM` (R132). -/
def execRdRam (a : Addr) (s : State) : Result := readStore Config.params .ram a s

/-- `RD.PPU` (R133). -/
def execRdPpu (a : Addr) (s : State) : Result := readDevice Config.params .ppu a s

/-- `RD.AIO` (R134). -/
def execRdAio (a : Addr) (s : State) : Result := readDevice Config.params .aio a s

/-- `RD.EXP` (R135). -/
def execRdExp (a : Addr) (s : State) : Result := readStore Config.params .exp a s

/-- `RD.SRAM` (R136). -/
def execRdSram (a : Addr) (s : State) : Result := readStore Config.params .sram a s

/-- `RD.CART` (R137). -/
def execRdCart (a : Addr) (s : State) : Result := readCart Config.params a s

end Sys2Proof.Machine
end

