-- ==== Sys2Proof/Machine/BusWrite.lean ====
section
/-! DEFINITION. The six write instructions (42_bus_write.md R150 to R162). Every one that is not a fault
ends by driving its data byte (R160). -/

namespace Sys2Proof.Machine

/-- A write in a store region (R151): `WriteAt` on the store. No store is write-protected. -/
def writeStore (P : Params) (σ : StoreId) (a : Addr) (d : Byte) (s : State) : Result :=
  match writeAt P s σ (windowOffset (storeRegion σ) a) d with
  | some t => .next (drive d t)
  | none => .fault .storeIndexAssert

/-- A write in a device region (R153, R154): one `WriteRegister` call, or nothing with no device bound
(R159). -/
def writeDevice (P : Params) (δ : DevId) (a : Addr) (d : Byte) (s : State) : Result :=
  if inWindow (devRegion δ) a then
    if devBound P δ then .next (drive d (withDevice s δ (callWrite P s δ (devOperand δ a) d)))
    else .next (drive d s)
  else .fault .decoderInconsistency

/-- A write in CartridgeSpace (R157): forward, resolve on the mapper state the forward left, store if
writable (44_mapper_capability.md R185); nothing with no mapper bound (R159). -/
def writeCart (P : Params) (a : Addr) (d : Byte) (s : State) : Result :=
  if inWindow .cartridgeSpace a then
    if s.mapperBound then
      match resolve P (forward P s.cart a d) a with
      | some t => .next (drive d { s with cart := gatedStore P (forward P s.cart a d) t d })
      | none => .fault .mapperContract
    else .next (drive d s)
  else .fault .decoderInconsistency

/-- `WR.RAM` (R152). -/
def execWrRam (a : Addr) (d : Byte) (s : State) : Result := writeStore Config.params .ram a d s

/-- `WR.PPU` (R153). -/
def execWrPpu (a : Addr) (d : Byte) (s : State) : Result := writeDevice Config.params .ppu a d s

/-- `WR.AIO` (R154). -/
def execWrAio (a : Addr) (d : Byte) (s : State) : Result := writeDevice Config.params .aio a d s

/-- `WR.EXP` (R155). -/
def execWrExp (a : Addr) (d : Byte) (s : State) : Result := writeStore Config.params .exp a d s

/-- `WR.SRAM` (R156). -/
def execWrSram (a : Addr) (d : Byte) (s : State) : Result := writeStore Config.params .sram a d s

/-- `WR.CART` (R157). -/
def execWrCart (a : Addr) (d : Byte) (s : State) : Result := writeCart Config.params a d s

end Sys2Proof.Machine
end

