-- ==== Sys2Proof/Machine/Dispatch.lean ====
section
/-! DEFINITION. The meaning of every instruction, one arm each. -/

namespace Sys2Proof.Machine

def exec (i : Instr) (s : State) : Host.Outcome State Fault Refusal :=
  match i with
  | .rdRam a => Sys2Proof.Machine.execRdRam a s
  | .rdPpu a => Sys2Proof.Machine.execRdPpu a s
  | .rdAio a => Sys2Proof.Machine.execRdAio a s
  | .rdExp a => Sys2Proof.Machine.execRdExp a s
  | .rdSram a => Sys2Proof.Machine.execRdSram a s
  | .rdCart a => Sys2Proof.Machine.execRdCart a s
  | .wrRam a d => Sys2Proof.Machine.execWrRam a d s
  | .wrPpu a d => Sys2Proof.Machine.execWrPpu a d s
  | .wrAio a d => Sys2Proof.Machine.execWrAio a d s
  | .wrExp a d => Sys2Proof.Machine.execWrExp a d s
  | .wrSram a d => Sys2Proof.Machine.execWrSram a d s
  | .wrCart a d => Sys2Proof.Machine.execWrCart a d s

end Sys2Proof.Machine
end

