-- ==== Sys2Proof/Machine/HostOps.lean ====
section
/-! DEFINITION. The steps that are no transaction (46_host_operations.md, 70_reset_and_hazards.md), and
taking the oldest issued event. -/

namespace Sys2Proof.Machine

/-- `LOAD_CARTRIDGE` (46_host_operations.md R210): one step; the cartridge is replaced whole, and the
rest of the state is kept (R211). -/
def loadCartridge (P : Params) (mp : CartId) (s : State) : State :=
  { s with mapperBound := true, cart := freshCart P mp }

/-- Does the environment's choice obey both devices' `Env` (R214)? -/
def envAllows (P : Params) (s : State) (ppu aio : DState) : Bool :=
  P.ppuDev.env s.ppu ppu && P.aioDev.env s.aio aio

/-- `ENV_STEP` (R214): the two devices' states only. -/
def envStep (ppu aio : DState) (s : State) : State := { s with ppu := ppu, aio := aio }

/-- `TEARDOWN` (R212): no step follows. -/
def teardown (s : State) : State := { s with phase := .tornDown }

/-- `CONSTRUCT` (70_reset_and_hazards.md R250), what was issued after it still waiting. -/
def construct (P : Params) (mp : Option CartId) (s : State) : State :=
  { launch P mp with inbox := s.inbox }

/-- What taking the oldest event comes to: a transaction to run in a state that has taken it, or the
answer of the whole step. -/
inductive Fetched
  | transaction (w : TWord) (s : State)
  | done (r : Result)
  deriving Repr

/-- The event at the head of a live block's inbox; `s` has taken it. -/
def takeLive (P : Params) (e : Event) (s : State) : Fetched :=
  match e with
  | .transaction w => .transaction w s
  | .construct _ => .done (.refused .secondConstruct)
  | .loadCartridge mp => .done (.next (loadCartridge P mp s))
  | .envStep ppu aio =>
      if envAllows P s ppu aio then .done (.next (envStep ppu aio s))
      else .done (.refused .envNotAllowed)
  | .teardown => .done (.next (teardown s))

/-- The event at the head of the inbox of a block not yet constructed: only `CONSTRUCT` has a meaning
(70_reset_and_hazards.md R252). -/
def takeBefore (P : Params) (e : Event) (s : State) : Fetched :=
  match e with
  | .construct mp => .done (.next (construct P mp s))
  | .transaction _ => .done (.refused .beforeConstruct)
  | .loadCartridge _ => .done (.refused .beforeConstruct)
  | .envStep _ _ => .done (.refused .beforeConstruct)
  | .teardown => .done (.refused .beforeConstruct)

/-- Take the oldest event (20_memory.md R66: in the order issued, each exactly once). With nothing issued
the block waits unchanged: it issues no access of its own. After `TEARDOWN` there is no step. -/
def fetch (P : Params) (s : State) : Fetched :=
  match s.phase, s.inbox with
  | .tornDown, _ => .done (.refused .afterTeardown)
  | .live, [] => .done (.next s)
  | .beforeConstruct, [] => .done (.next s)
  | .live, e :: rest => takeLive P e { s with inbox := rest }
  | .beforeConstruct, e :: rest => takeBefore P e { s with inbox := rest }

end Sys2Proof.Machine
end

