-- ==== Sys2Proof/Machine/Step.lean ====
section
/-! DEFINITION. One step of the machine: take the oldest event; a transaction is decoded and run. -/

namespace Sys2Proof.Machine

/-- One step (00_scope.md R7, R19). -/
def step (s : State) : Host.Outcome State Fault Refusal :=
  match fetch Config.params s with
  | .transaction w t => exec (decode w) t
  | .done r => r

/-- The state in which the transaction word `w` is the next one the master has issued (log 9). -/
def State.withFetchWord (s : State) (_nbits w : Nat) : State :=
  { s with inbox := .transaction (BitVec.ofNat 25 w) :: s.inbox }

end Sys2Proof.Machine
end

