-- ==== Sys2Proof/Machine/Bus.lean ====
section
/-! DEFINITION. The Bus's two entry points as 41_bus_read.md R130 and 42_bus_write.md R150 write them: the
master names no region (30_encoding.md R86), `Decode` finds it. For any parameters, so that a claim can
be stated for every value of the open ones (00_scope.md R10). The machine's `step` goes through `decode`
and `exec` instead; that the two agree is a statement. -/

namespace Sys2Proof.Machine

/-- `RD(A)` (R130). -/
def busRead (P : Params) (a : Addr) (s : State) : Result :=
  match (decodeAddress a).1 with
  | .systemRAM => readStore P .ram a s
  | .pictureUnitRegisters => readDevice P .ppu a s
  | .audioAndIORegisters => readDevice P .aio a s
  | .expansionROM => readStore P .exp a s
  | .saveRAM => readStore P .sram a s
  | .cartridgeSpace => readCart P a s

/-- `WR(A, d)` (R150). -/
def busWrite (P : Params) (a : Addr) (d : Byte) (s : State) : Result :=
  match (decodeAddress a).1 with
  | .systemRAM => writeStore P .ram a d s
  | .pictureUnitRegisters => writeDevice P .ppu a d s
  | .audioAndIORegisters => writeDevice P .aio a d s
  | .expansionROM => writeStore P .exp a d s
  | .saveRAM => writeStore P .sram a d s
  | .cartridgeSpace => writeCart P a d s

/-- The transaction a word of format T spells (30_encoding.md R81). -/
def busTransaction (P : Params) (w : TWord) (s : State) : Result :=
  if wordOp w = 0 then busRead P (wordAddr w) s else busWrite P (wordAddr w) (wordData w) s

/-- One step of the block with parameters `P`. -/
def busStep (P : Params) (s : State) : Result :=
  match fetch P s with
  | .transaction w t => busTransaction P w t
  | .done r => r

end Sys2Proof.Machine
end

