-- ==== Sys2Proof/Safety.lean ====
section
/-! DEFINITION. The terms claims use: canonical memory, a mapper that keeps its contract, and the
invariant of a run. -/

namespace Sys2Proof.Machine

/-- A bound cartridge is shaped as its mapper says: one array per storage, each in canonical form and
inside its size (10_state.md R29, R40). -/
def cartWf (P : Params) (c : Cart) : Prop :=
  c.stor.length = (P.mapper c.id).storages ∧
    ∀ sid, Memory.wf ((P.mapper c.id).stor0 sid) ((P.mapper c.id).size sid) (c.stor.getD sid [])

/-- All memory of the state is in canonical form and inside its capacity. Nothing is asked of `cart`
while no mapper is bound: it then has no meaning (10_state.md R29). -/
def memoryWf (P : Params) (s : State) : Prop :=
  (∀ σ, Memory.wf (storeLaunch P σ) (storeCap σ) (storeCells s σ)) ∧
    (s.mapperBound = true → cartWf P s.cart)

/-- The mapper states the block can bring a mapper to: forwarded writes are to CartridgeSpace
(44_mapper_capability.md R184). -/
inductive MapperReach (M : MapperModel) : MState → Prop
  | bound : MapperReach M M.m0
  | observed (m : MState) (a : Addr) (d : Byte) :
      MapperReach M m → inWindow .cartridgeSpace a = true → MapperReach M (M.observeWrite m a d)

/-- The obligation on a mapper (44_mapper_capability.md R183). -/
def keepsContract (M : MapperModel) : Prop :=
  ∀ m, MapperReach M m → ∀ a, inWindow .cartridgeSpace a = true →
    (M.translate m a).sid < M.storages ∧ (M.translate m a).off < M.size (M.translate m a).sid

/-- The invariant of a run: canonical memory, and a bound mapper's state is one it can reach. -/
def runInv (P : Params) (s : State) : Prop :=
  memoryWf P s ∧ (s.mapperBound = true → MapperReach (P.mapper s.cart.id) s.cart.m)

/-- The answer is no fault. -/
def noFault (r : Result) : Prop := ∀ f, r ≠ .fault f

/-- The access finds nothing bound behind its region (60_exceptions.md R221). -/
def unmapped (P : Params) (s : State) (a : Addr) : Bool :=
  match (decodeAddress a).1 with
  | .systemRAM => false
  | .pictureUnitRegisters => !P.ppuBound
  | .audioAndIORegisters => !P.aioBound
  | .expansionROM => false
  | .saveRAM => false
  | .cartridgeSpace => !s.mapperBound

/-- An answer with its next state, if it has one, passed through a function. -/
def mapNext (f : State → State) (r : Result) : Result :=
  match r with
  | .next t => .next (f t)
  | .fault x => .fault x
  | .refused x => .refused x

/-- `n` steps of the block, up to the first fault or refusal. -/
def runSteps (P : Params) : Nat → State → Result
  | 0, s => .next s
  | n + 1, s =>
    match busStep P s with
    | .next t => runSteps P n t
    | .fault f => .fault f
    | .refused r => .refused r

/-- Transactions one after another, each on the state the one before left. -/
def runWords (P : Params) : List TWord → State → Result
  | [], s => .next s
  | w :: ws, s =>
    match busTransaction P w s with
    | .next t => runWords P ws t
    | .fault f => .fault f
    | .refused r => .refused r

/-- The event writes element `i` of a store: a `WR` to one of its mirrors (20_memory.md R59). -/
def writesStoreByte (σ : StoreId) (i : Nat) (e : Event) : Prop :=
  ∃ w, e = .transaction w ∧ wordOp w = 1 ∧ (decodeAddress (wordAddr w)).1 = storeRegion σ ∧
    storeIndex σ (decodeAddress (wordAddr w)).2 = i

end Sys2Proof.Machine
end

