-- ==== Sys2Proof/Certificates/Slice0/Obligations.lean ====
section
/-! DEFINITION. The statements for the provers. `P` stands for any parameters (00_scope.md R10);
`exec` and `step` are the machine's own, with `Config.params`. -/

open Sys2Proof Sys2Proof.Machine

/-! ### Encoding (30_encoding.md) -/

/-- Words written out bit by bit from format T (R81) decode to the instruction they stand for, one of
each mnemonic (R86). -/
def Obligations.SpelledWordsDecode : Prop :=
  decode 0b0_0000111111111111_00000000 = .rdRam 0x0FFF ∧
  decode 0b0_0010000000001101_00000000 = .rdPpu 0x200D ∧
  decode 0b0_0100000000011111_00000000 = .rdAio 0x401F ∧
  decode 0b0_0100000000100000_00000000 = .rdExp 0x4020 ∧
  decode 0b0_0111111111111111_00000000 = .rdSram 0x7FFF ∧
  decode 0b0_1111111111111100_00000000 = .rdCart 0xFFFC ∧
  decode 0b1_0000011111111111_01111110 = .wrRam 0x07FF 0x7E ∧
  decode 0b1_0010000000000101_10101011 = .wrPpu 0x2005 0xAB ∧
  decode 0b1_0100000000011111_00110011 = .wrAio 0x401F 0x33 ∧
  decode 0b1_0101111111111111_01010101 = .wrExp 0x5FFF 0x55 ∧
  decode 0b1_0110000000000000_01100110 = .wrSram 0x6000 0x66 ∧
  decode 0b1_1111111111111111_00000101 = .wrCart 0xFFFF 0x05

/-- Decoding an encoded well-formed instruction gives it back, for all twelve and every operand value. -/
def Obligations.DecodeOfEncode : Prop :=
  ∀ i : Instr, i.wf = true → decode (encode i) = i

/-- Every word decodes to a well-formed instruction (R89), and encoding it gives the word back, but for
the ignored data field of a read (R82). -/
def Obligations.EncodeOfDecode : Prop :=
  ∀ w : TWord, (decode w).wf = true ∧
    encode (decode w) =
      (if wordOp w = 0 then assemble 0 (wordAddr w) 0 else w)

/-- The data field of a read word is ignored: any two read words of one address decode to the same
instruction (R82). -/
def Obligations.ReadIgnoresData : Prop :=
  ∀ w w' : TWord, wordOp w = 0 → wordOp w' = 0 → wordAddr w = wordAddr w' → decode w = decode w'

/-- Every word matches exactly one of the 26 rows of the opcode table, and that row has the mnemonic of
the instruction the decoder reads (R95). -/
def Obligations.EachWordMatchesOneRow : Prop :=
  ∀ w : TWord,
    (opcodeRows.filter fun row => rowMatches row w).map (fun row => row.mnemonic) = [mnemonic (decode w)]

/-! ### The AddressDecoder (40_address_decoder.md) -/

/-- `Decode` by the six ranges of the region table, with the offset from the base (R111). -/
def Obligations.DecodeByRanges : Prop :=
  ∀ a : Addr,
    (a.toNat ≤ 0x1FFF → decodeAddress a = (.systemRAM, a - 0x0000)) ∧
    (0x2000 ≤ a.toNat → a.toNat ≤ 0x3FFF → decodeAddress a = (.pictureUnitRegisters, a - 0x2000)) ∧
    (0x4000 ≤ a.toNat → a.toNat ≤ 0x401F → decodeAddress a = (.audioAndIORegisters, a - 0x4000)) ∧
    (0x4020 ≤ a.toNat → a.toNat ≤ 0x5FFF → decodeAddress a = (.expansionROM, a - 0x4020)) ∧
    (0x6000 ≤ a.toNat → a.toNat ≤ 0x7FFF → decodeAddress a = (.saveRAM, a - 0x6000)) ∧
    (0x8000 ≤ a.toNat → decodeAddress a = (.cartridgeSpace, a - 0x8000))

/-- The six windows partition the address space: every address is in exactly one, and `Decode` names
that one (20_memory.md R58, 40_address_decoder.md R114). -/
def Obligations.RegionsPartitionAddresses : Prop :=
  ∀ a : Addr, ∃ r, inWindow r a = true ∧ (decodeAddress a).1 = r ∧ ∀ r', inWindow r' a = true → r' = r

/-- The offset is the distance from the base of the window, and lies below the window's size
(R112, R113). -/
def Obligations.OffsetIsDistanceInWindow : Prop :=
  ∀ a : Addr,
    (decodeAddress a).2.toNat + (regionBase (decodeAddress a).1).toNat = a.toNat ∧
      (decodeAddress a).2.toNat < regionSize (decodeAddress a).1

/-- The six select terms on address bits say the same as `Decode`, so exactly one is true
(30_encoding.md R87). -/
def Obligations.SelectTermsMatchDecode : Prop :=
  ∀ (a : Addr) (r : Region), selects r a = true ↔ (decodeAddress a).1 = r

/-- The operand forms as slices of address bits (30_encoding.md R88). -/
def Obligations.OperandsAreAddressBits : Prop :=
  ∀ a : Addr,
    (inWindow .systemRAM a = true →
      storeIndex .ram (windowOffset .systemRAM a) = (a.extractLsb' 0 11).toNat) ∧
    (inWindow .pictureUnitRegisters a = true →
      devOperand .ppu a = (a.extractLsb' 0 3).setWidth 8) ∧
    (inWindow .audioAndIORegisters a = true →
      devOperand .aio a = (a.extractLsb' 0 5).setWidth 8) ∧
    (inWindow .expansionROM a = true →
      storeIndex .exp (windowOffset .expansionROM a) = (a.extractLsb' 0 13).toNat - 0x20 ∧
        0x20 ≤ (a.extractLsb' 0 13).toNat) ∧
    (inWindow .saveRAM a = true →
      storeIndex .sram (windowOffset .saveRAM a) = (a.extractLsb' 0 13).toNat) ∧
    (inWindow .cartridgeSpace a = true →
      windowOffset .cartridgeSpace a = (a.extractLsb' 0 15).setWidth 16)

/-- The picture unit is passed offsets 0 to 7 only, the audio/IO unit 0 to 31 only
(30_encoding.md R91). -/
def Obligations.DevicesSeeTheirOffsetsOnly : Prop :=
  ∀ a : Addr,
    (inWindow .pictureUnitRegisters a = true → (devOperand .ppu a).toNat < 8) ∧
    (inWindow .audioAndIORegisters a = true → (devOperand .aio a).toNat < 32)

/-- Two addresses of a window name the same reduced offset exactly when they are congruent modulo the
period, and only if equal where the period is 0 (20_memory.md R59). -/
def Obligations.MirrorAliasLaw : Prop :=
  ∀ (r : Region) (a b : Addr), inWindow r a = true → inWindow r b = true →
    (reduceOffset (windowOffset r a) (regionPeriod r) = reduceOffset (windowOffset r b) (regionPeriod r) ↔
      if (regionPeriod r).toNat = 0 then a = b
      else (a.toNat - (regionBase r).toNat) % (regionPeriod r).toNat =
        (b.toNat - (regionBase r).toNat) % (regionPeriod r).toNat)

/-- In a mirrored window, accesses at congruent addresses are the same access, for reads and for writes
(20_memory.md R59). -/
def Obligations.MirroredAccessesAgree : Prop :=
  ∀ (P : Params) (r : Region) (a b : Addr), inWindow r a = true → inWindow r b = true →
    (regionPeriod r).toNat ≠ 0 →
    (a.toNat - (regionBase r).toNat) % (regionPeriod r).toNat =
      (b.toNat - (regionBase r).toNat) % (regionPeriod r).toNat →
    ∀ s, busRead P a s = busRead P b s ∧ ∀ d, busWrite P a d s = busWrite P b d s

/-! ### The six reads (41_bus_read.md): encoding, result, everything else unchanged -/

/-- `RD.RAM` (R132). -/
def Obligations.ReadRamReturnsStoreByte : Prop :=
  (∀ w : TWord, w &&& 0x1E00000 = 0x0000000 → decode w = .rdRam (wordAddr w)) ∧
  ∀ (a : Addr) (s : State), a.toNat ≤ 0x1FFF →
    exec (.rdRam a) s =
      .next { s with dbLatch := storeByte Config.params s .ram (a.toNat % 0x0800),
                     rdata := some (storeByte Config.params s .ram (a.toNat % 0x0800)) }

/-- `RD.PPU` (R133): one `ReadRegister` call, or the open-bus byte with no device bound. -/
def Obligations.ReadPpuCallsDevice : Prop :=
  (∀ w : TWord, w &&& 0x1E00000 = 0x0200000 → decode w = .rdPpu (wordAddr w)) ∧
  (∀ (a : Addr) (s : State), 0x2000 ≤ a.toNat → a.toNat ≤ 0x3FFF →
    ∀ r, Config.params.ppuDev.readRegister s.ppu (BitVec.ofNat 8 ((a.toNat - 0x2000) % 8)) = r →
    exec (.rdPpu a) s = .next { s with ppu := r.2, dbLatch := r.1, rdata := some r.1 }) ∧
  ∀ (P : Params) (a : Addr) (s : State), 0x2000 ≤ a.toNat → a.toNat ≤ 0x3FFF →
    ∀ r, P.ppuDev.readRegister s.ppu (BitVec.ofNat 8 ((a.toNat - 0x2000) % 8)) = r →
    readDevice P .ppu a s =
      if P.ppuBound then .next { s with ppu := r.2, dbLatch := r.1, rdata := some r.1 }
      else .next { s with rdata := some (openBus P s) }

/-- `RD.AIO` (R134): one `ReadRegister` call, or the open-bus byte with no device bound. -/
def Obligations.ReadAioCallsDevice : Prop :=
  (∀ w : TWord, w &&& 0x1FFE000 = 0x0400000 → decode w = .rdAio (wordAddr w)) ∧
  (∀ (a : Addr) (s : State), 0x4000 ≤ a.toNat → a.toNat ≤ 0x401F →
    ∀ r, Config.params.aioDev.readRegister s.aio (BitVec.ofNat 8 (a.toNat - 0x4000)) = r →
    exec (.rdAio a) s = .next { s with aio := r.2, dbLatch := r.1, rdata := some r.1 }) ∧
  ∀ (P : Params) (a : Addr) (s : State), 0x4000 ≤ a.toNat → a.toNat ≤ 0x401F →
    ∀ r, P.aioDev.readRegister s.aio (BitVec.ofNat 8 (a.toNat - 0x4000)) = r →
    readDevice P .aio a s =
      if P.aioBound then .next { s with aio := r.2, dbLatch := r.1, rdata := some r.1 }
      else .next { s with rdata := some (openBus P s) }

/-- `RD.EXP` (R135). -/
def Obligations.ReadExpReturnsStoreByte : Prop :=
  (∀ w : TWord, wordOp w = 0 → (wordAddr w).extractLsb' 13 3 = 0b010 →
    (wordAddr w).extractLsb' 5 8 ≠ 0 → decode w = .rdExp (wordAddr w)) ∧
  ∀ (a : Addr) (s : State), 0x4020 ≤ a.toNat → a.toNat ≤ 0x5FFF →
    exec (.rdExp a) s =
      .next { s with dbLatch := storeByte Config.params s .exp (a.toNat - 0x4020),
                     rdata := some (storeByte Config.params s .exp (a.toNat - 0x4020)) }

/-- `RD.SRAM` (R136). -/
def Obligations.ReadSramReturnsStoreByte : Prop :=
  (∀ w : TWord, w &&& 0x1E00000 = 0x0600000 → decode w = .rdSram (wordAddr w)) ∧
  ∀ (a : Addr) (s : State), 0x6000 ≤ a.toNat → a.toNat ≤ 0x7FFF →
    exec (.rdSram a) s =
      .next { s with dbLatch := storeByte Config.params s .sram (a.toNat - 0x6000),
                     rdata := some (storeByte Config.params s .sram (a.toNat - 0x6000)) }

/-- `RD.CART` (R137): with a mapper bound, the byte its translation names, or a fault where it names
none; with no mapper bound, the open-bus byte. The machine's own form is the one with its parameters,
and with no mapper bound it always completes. The fault clause counts the storages the state holds where
R137 says `sid in StorageId`: the model's reading (log 14, DEDUCED), so the statement is derived. -/
def Obligations.ReadCartResolvesThroughMapper : Prop :=
  (∀ w : TWord, w &&& 0x1800000 = 0x0800000 → decode w = .rdCart (wordAddr w)) ∧
  (∀ (a : Addr) (s : State), exec (.rdCart a) s = readCart Config.params a s) ∧
  (∀ (a : Addr) (s : State), 0x8000 ≤ a.toNat → s.mapperBound = false →
    exec (.rdCart a) s = .next { s with rdata := some Config.params.openBusValue }) ∧
  ∀ (P : Params) (a : Addr) (s : State), 0x8000 ≤ a.toNat →
    ∀ t, (P.mapper s.cart.id).translate s.cart.m a = t →
    readCart P a s =
      if s.mapperBound then
        if t.sid < s.cart.stor.length ∧ t.off < (P.mapper s.cart.id).size t.sid then
          .next { s with dbLatch := cartByte P s.cart t.sid t.off,
                         rdata := some (cartByte P s.cart t.sid t.off) }
        else .fault .mapperContract
      else .next { s with rdata := some (openBus P s) }

/-! ### The six writes (42_bus_write.md) -/

/-- `WR.RAM` (R152): one byte of one store, and every other byte as before. -/
def Obligations.WriteRamSetsStoreByte : Prop :=
  (∀ w : TWord, w &&& 0x1E00000 = 0x1000000 → decode w = .wrRam (wordAddr w) (wordData w)) ∧
  ∀ (a : Addr) (d : Byte) (s : State), a.toNat ≤ 0x1FFF →
    ∃ m, exec (.wrRam a d) s = .next { s with ram := m, dbLatch := d, rdata := none } ∧
      ∀ i, Memory.read Config.params.initRam m i =
        if i = a.toNat % 0x0800 then d else storeByte Config.params s .ram i

/-- `WR.PPU` (R153): one `WriteRegister` call, or nothing with no device bound (R159). -/
def Obligations.WritePpuCallsDevice : Prop :=
  (∀ w : TWord, w &&& 0x1E00000 = 0x1200000 → decode w = .wrPpu (wordAddr w) (wordData w)) ∧
  (∀ (a : Addr) (d : Byte) (s : State), 0x2000 ≤ a.toNat → a.toNat ≤ 0x3FFF →
    exec (.wrPpu a d) s =
      .next { s with
        ppu := Config.params.ppuDev.writeRegister s.ppu (BitVec.ofNat 8 ((a.toNat - 0x2000) % 8)) d,
        dbLatch := d, rdata := none }) ∧
  ∀ (P : Params) (a : Addr) (d : Byte) (s : State), 0x2000 ≤ a.toNat → a.toNat ≤ 0x3FFF →
    writeDevice P .ppu a d s =
      if P.ppuBound then
        .next { s with ppu := P.ppuDev.writeRegister s.ppu (BitVec.ofNat 8 ((a.toNat - 0x2000) % 8)) d,
                       dbLatch := d, rdata := none }
      else .next { s with dbLatch := d, rdata := none }

/-- `WR.AIO` (R154): one `WriteRegister` call, or nothing with no device bound (R159). -/
def Obligations.WriteAioCallsDevice : Prop :=
  (∀ w : TWord, w &&& 0x1FFE000 = 0x1400000 → decode w = .wrAio (wordAddr w) (wordData w)) ∧
  (∀ (a : Addr) (d : Byte) (s : State), 0x4000 ≤ a.toNat → a.toNat ≤ 0x401F →
    exec (.wrAio a d) s =
      .next { s with
        aio := Config.params.aioDev.writeRegister s.aio (BitVec.ofNat 8 (a.toNat - 0x4000)) d,
        dbLatch := d, rdata := none }) ∧
  ∀ (P : Params) (a : Addr) (d : Byte) (s : State), 0x4000 ≤ a.toNat → a.toNat ≤ 0x401F →
    writeDevice P .aio a d s =
      if P.aioBound then
        .next { s with aio := P.aioDev.writeRegister s.aio (BitVec.ofNat 8 (a.toNat - 0x4000)) d,
                       dbLatch := d, rdata := none }
      else .next { s with dbLatch := d, rdata := none }

/-- `WR.EXP` (R155): one byte of one store, and every other byte as before. -/
def Obligations.WriteExpSetsStoreByte : Prop :=
  (∀ w : TWord, wordOp w = 1 → (wordAddr w).extractLsb' 13 3 = 0b010 →
    (wordAddr w).extractLsb' 5 8 ≠ 0 → decode w = .wrExp (wordAddr w) (wordData w)) ∧
  ∀ (a : Addr) (d : Byte) (s : State), 0x4020 ≤ a.toNat → a.toNat ≤ 0x5FFF →
    ∃ m, exec (.wrExp a d) s = .next { s with exp := m, dbLatch := d, rdata := none } ∧
      ∀ i, Memory.read Config.params.initExp m i =
        if i = a.toNat - 0x4020 then d else storeByte Config.params s .exp i

/-- `WR.SRAM` (R156): one byte of one store, and every other byte as before. -/
def Obligations.WriteSramSetsStoreByte : Prop :=
  (∀ w : TWord, w &&& 0x1E00000 = 0x1600000 → decode w = .wrSram (wordAddr w) (wordData w)) ∧
  ∀ (a : Addr) (d : Byte) (s : State), 0x6000 ≤ a.toNat → a.toNat ≤ 0x7FFF →
    ∃ m, exec (.wrSram a d) s = .next { s with sram := m, dbLatch := d, rdata := none } ∧
      ∀ i, Memory.read Config.params.initSram m i =
        if i = a.toNat - 0x6000 then d else storeByte Config.params s .sram i

/-- `WR.CART` (R157): the forward, then the translation on the mapper state it left, then the store if
writable; a fault where the translation names no byte; with no mapper bound, nothing (R159). Two clauses
make the statement derived. The fault clause counts the storages the state holds where R157 says `sid in
StorageId` (log 14, DEDUCED). And "That `Translate` in step 2 sees the mapper state left by step 1 is the
spec's reading of that order" (R157; 92_eei_decisions.md D12: "either order is a guess"; log 15). -/
def Obligations.WriteCartForwardsThenStores : Prop :=
  (∀ w : TWord, w &&& 0x1800000 = 0x1800000 → decode w = .wrCart (wordAddr w) (wordData w)) ∧
  (∀ (a : Addr) (d : Byte) (s : State), exec (.wrCart a d) s = writeCart Config.params a d s) ∧
  (∀ (a : Addr) (d : Byte) (s : State), 0x8000 ≤ a.toNat → s.mapperBound = false →
    exec (.wrCart a d) s = .next { s with dbLatch := d, rdata := none }) ∧
  ∀ (P : Params) (a : Addr) (d : Byte) (s : State), 0x8000 ≤ a.toNat →
    ∀ m t, (P.mapper s.cart.id).observeWrite s.cart.m a d = m →
    (P.mapper s.cart.id).translate m a = t →
    writeCart P a d s =
      if s.mapperBound then
        if t.sid < s.cart.stor.length ∧ t.off < (P.mapper s.cart.id).size t.sid then
          if t.writable then
            .next { s with cart := setCartByte P { s.cart with m := m } t.sid t.off d,
                           dbLatch := d, rdata := none }
          else .next { s with cart := { s.cart with m := m }, dbLatch := d, rdata := none }
        else .fault .mapperContract
      else .next { s with dbLatch := d, rdata := none }

/-! ### What a transaction changes and what it leaves -/

/-- What a read may change, in every region (41_bus_read.md R143, R140): at most its own device and,
unless it is unmapped, the latch. -/
def Obligations.ReadChangesAtMostLatchAndDevice : Prop :=
  ∀ (P : Params) (a : Addr) (s t : State), busRead P a s = .next t →
    t.ram = s.ram ∧ t.exp = s.exp ∧ t.sram = s.sram ∧ t.cart = s.cart ∧
    t.mapperBound = s.mapperBound ∧ t.phase = s.phase ∧ t.inbox = s.inbox ∧
    (((decodeAddress a).1 ≠ .pictureUnitRegisters ∨ unmapped P s a = true) → t.ppu = s.ppu) ∧
    (((decodeAddress a).1 ≠ .audioAndIORegisters ∨ unmapped P s a = true) → t.aio = s.aio) ∧
    ∃ v, t.rdata = some v ∧ t.dbLatch = if unmapped P s a then s.dbLatch else v

/-- What a write may change, in every region (42_bus_write.md R162, R160): the latch always, one byte of
its own store, its own device, or the mapper's state and one byte of a storage if writable. Which byte of
a storage rests on the spec's own reading of the order in `WR.CART` (R157, 92_eei_decisions.md D12;
log 15), so the statement is derived. -/
def Obligations.WriteChangesOnlyItsTarget : Prop :=
  ∀ (P : Params) (a : Addr) (d : Byte) (s t : State), busWrite P a d s = .next t →
    t.dbLatch = d ∧ t.rdata = none ∧ t.mapperBound = s.mapperBound ∧ t.phase = s.phase ∧
    t.inbox = s.inbox ∧
    (∀ σ i, storeByte P t σ i =
      if (decodeAddress a).1 = storeRegion σ ∧ i = storeIndex σ (decodeAddress a).2 then d
      else storeByte P s σ i) ∧
    (((decodeAddress a).1 ≠ .pictureUnitRegisters ∨ unmapped P s a = true) → t.ppu = s.ppu) ∧
    (((decodeAddress a).1 ≠ .audioAndIORegisters ∨ unmapped P s a = true) → t.aio = s.aio) ∧
    (((decodeAddress a).1 ≠ .cartridgeSpace ∨ unmapped P s a = true) → t.cart = s.cart) ∧
    t.cart.id = s.cart.id ∧
    ∀ sid o, cartByte P t.cart sid o =
      if (decodeAddress a).1 = .cartridgeSpace ∧ s.mapperBound = true ∧
          (callTranslate P (forward P s.cart a d) a).writable = true ∧
          sid = (callTranslate P (forward P s.cart a d) a).sid ∧
          o = (callTranslate P (forward P s.cart a d) a).off then d
      else cartByte P s.cart sid o

/-- A read outside the device regions is idempotent: done twice, it returns the same byte and leaves the
same state (20_memory.md R65). -/
def Obligations.PlainReadsAreIdempotent : Prop :=
  ∀ (P : Params) (a : Addr) (s t : State),
    (decodeAddress a).1 ≠ .pictureUnitRegisters → (decodeAddress a).1 ≠ .audioAndIORegisters →
    busRead P a s = .next t → busRead P a t = .next t

/-- An unmapped read returns the open-bus byte, under either policy, and changes no state
(41_bus_read.md R138, R139). -/
def Obligations.UnmappedReadIsOpenBus : Prop :=
  ∀ (P : Params) (a : Addr) (s : State), unmapped P s a = true →
    (P.openBusPolicy = .fixed → busRead P a s = .next { s with rdata := some P.openBusValue }) ∧
    (P.openBusPolicy = .lastDriven → busRead P a s = .next { s with rdata := some s.dbLatch })

/-- An unmapped write is discarded; only the latch takes the byte (42_bus_write.md R159, R160). -/
def Obligations.UnmappedWriteIsDiscarded : Prop :=
  ∀ (P : Params) (a : Addr) (d : Byte) (s : State), unmapped P s a = true →
    busWrite P a d s = .next { s with dbLatch := d, rdata := none }

/-- An instruction whose address is outside the region it names, which no word decodes to (log 13), stops: a
store instruction on the component's assertion (43_mirrored_register.md R174), the others on the decoder
inconsistency (60_exceptions.md R223). -/
def Obligations.OutOfWindowInstructionsStop : Prop :=
  ∀ (i : Instr) (s : State), i.wf = false →
    exec i s = .fault (if i.region = .systemRAM ∨ i.region = .expansionROM ∨ i.region = .saveRAM
      then .storeIndexAssert else .decoderInconsistency)

/-- Every transaction completes, in every state, unless it reaches a bound mapper: no address raises an
error (60_exceptions.md R220). -/
def Obligations.TransactionsComplete : Prop :=
  ∀ (i : Instr) (s : State), i.wf = true → (i.region ≠ .cartridgeSpace ∨ s.mapperBound = false) →
    ∃ t, exec i s = .next t

/-! ### Stores and storages -/

/-- The laws of one store (43_mirrored_register.md R176): read after write at an equal index and at
another, and the later of two writes wins. -/
def Obligations.StoreReadWriteLaws : Prop :=
  ∀ (P : Params) (s : State) (σ : StoreId) (x : Addr) (v : Byte),
    x.toNat < regionSize (storeRegion σ) →
    ∃ t, writeAt P s σ x v = some t ∧
      (∀ y : Addr, y.toNat < regionSize (storeRegion σ) →
        readAt P t σ y =
          if storeIndex σ x = storeIndex σ y then some v else readAt P s σ y) ∧
      ∀ (y : Addr) (v' : Byte), y.toNat < regionSize (storeRegion σ) → storeIndex σ x = storeIndex σ y →
        ∃ u, writeAt P t σ y v' = some u ∧
          ∀ z : Addr, z.toNat < regionSize (storeRegion σ) →
            readAt P u σ z = if storeIndex σ x = storeIndex σ z then some v' else readAt P s σ z

/-- Canonical arrays that read the same at every index are equal data. -/
def Obligations.CanonicalMemoriesAreEqualData : Prop :=
  ∀ (launch : Nat → Byte) (size : Nat) (m m' : Memory),
    Memory.wf launch size m → Memory.wf launch size m' →
    (∀ k, Memory.read launch m k = Memory.read launch m' k) → m = m'

/-- Over any run of the block, whatever transactions, cartridge changes and environment steps are in it, a
store byte changes only if a write to one of its mirrors was issued. That a `TEARDOWN` in the run keeps
the store bytes is the model's reading (log 12, DEDUCED). -/
def Obligations.RunKeepsUnwrittenStoreByte : Prop :=
  ∀ (P : Params) (n : Nat) (s t : State) (σ : StoreId) (i : Nat), s.phase ≠ .beforeConstruct →
    (∀ e ∈ s.inbox, ¬ writesStoreByte σ i e) → runSteps P n s = .next t →
    storeByte P t σ i = storeByte P s σ i

/-- Read after write (20_memory.md R67): a write to a store region, then any run with no write to an
alias, then a read of an alias, returns the byte written. `busRead` is asked at any phase. R67 is the
case of a live `t'`; that the bytes outlast a `TEARDOWN` in the run, after which R212 issues no
transaction, is the model's reading (log 12, DEDUCED), so the statement is derived. -/
def Obligations.ReadAfterWriteAcrossRun : Prop :=
  ∀ (P : Params) (σ : StoreId) (a b : Addr) (d : Byte) (n : Nat) (s t t' : State),
    inWindow (storeRegion σ) a = true → inWindow (storeRegion σ) b = true →
    storeIndex σ (windowOffset (storeRegion σ) a) = storeIndex σ (windowOffset (storeRegion σ) b) →
    s.phase ≠ .beforeConstruct →
    (∀ e ∈ s.inbox, ¬ writesStoreByte σ (storeIndex σ (windowOffset (storeRegion σ) a)) e) →
    busWrite P a d s = .next t → runSteps P n t = .next t' →
    ∃ u, busRead P b t' = .next u ∧ u.rdata = some d

/-- Write to ROM, and to cartridge RAM (42_bus_write.md R158): where the forwarded write leaves the
translation of the address unchanged, the read after the write returns the pre-write byte if the location
is not writable, and the byte written if it is. That the translation names a byte is the model's check
(log 14, DEDUCED), and that it is asked after the forward the spec's own reading (R157, D12; log 15). -/
def Obligations.CartWriteThenReadBack : Prop :=
  ∀ (P : Params) (a : Addr) (d : Byte) (s : State) (x y : Translation),
    inWindow .cartridgeSpace a = true → s.mapperBound = true →
    resolve P s.cart a = some x → resolve P (forward P s.cart a d) a = some y →
    y.sid = x.sid → y.off = x.off →
    ∃ q t u, busRead P a s = .next q ∧ busWrite P a d s = .next t ∧ busRead P a t = .next u ∧
      u.rdata = if y.writable then some d else q.rdata

/-! ### Host and environment (46_host_operations.md, 70_reset_and_hazards.md) -/

/-- The launch state for any mapper or none, and the `CONSTRUCT` step that leads to it (R250): stores,
latch and devices at their launch values, the mapper bound if given, with its own initial state and
storages. -/
def Obligations.ConstructGivesLaunchState : Prop :=
  ∀ (P : Params) (mp : Option CartId),
    (∀ σ i, storeByte P (launch P mp) σ i = storeLaunch P σ i) ∧
    (launch P mp).dbLatch = P.initLatch ∧ (launch P mp).ppu = P.ppuDev.d0 ∧
    (launch P mp).aio = P.aioDev.d0 ∧ (launch P mp).mapperBound = mp.isSome ∧
    (∀ id, mp = some id → (launch P mp).cart.id = id ∧ (launch P mp).cart.m = (P.mapper id).m0 ∧
      (launch P mp).cart.stor.length = (P.mapper id).storages ∧
      ∀ sid o, cartByte P (launch P mp).cart sid o = (P.mapper id).stor0 sid o) ∧
    ∀ (s : State) (rest : List Event), s.phase = .beforeConstruct → s.inbox = .construct mp :: rest →
      busStep P s = .next { launch P mp with inbox := rest }

/-- Reset leaves the launch values. That it is the launch with no mapper given is the model's choice
(log 7), so the statement is derived. -/
def Obligations.ResetIsLaunchState : Prop :=
  (∀ i, storeByte Config.params State.reset .ram i = Config.initRam i) ∧
  (∀ i, storeByte Config.params State.reset .exp i = Config.initExp i) ∧
  (∀ i, storeByte Config.params State.reset .sram i = Config.initSram i) ∧
  State.reset.dbLatch = Config.initLatch ∧ State.reset.ppu = Config.ppuDev.d0 ∧
  State.reset.aio = Config.aioDev.d0 ∧ State.reset.mapperBound = false ∧ State.reset.phase = .live

/-- Before `CONSTRUCT` nothing else has a meaning; a second `CONSTRUCT` is refused (R252, 93 U9; log 12,
DEDUCED). -/
def Obligations.ConstructIsFirstAndOnce : Prop :=
  ∀ (P : Params) (s : State) (e : Event) (rest : List Event), s.inbox = e :: rest →
    (s.phase = .beforeConstruct → (∀ mp, e ≠ .construct mp) → busStep P s = .refused .beforeConstruct) ∧
    (s.phase = .live → (∃ mp, e = .construct mp) → busStep P s = .refused .secondConstruct)

/-- `LOAD_CARTRIDGE` replaces the cartridge whole, in one step, and leaves everything else
(R210, R211). -/
def Obligations.LoadReplacesCartridgeOnly : Prop :=
  ∀ (P : Params) (s : State) (mp : CartId) (rest : List Event), s.phase = .live →
    s.inbox = .loadCartridge mp :: rest →
    ∃ c, busStep P s = .next { s with inbox := rest, mapperBound := true, cart := c } ∧
      c.id = mp ∧ c.m = (P.mapper mp).m0 ∧ c.stor.length = (P.mapper mp).storages ∧
      ∀ sid o, cartByte P c sid o = (P.mapper mp).stor0 sid o

/-- `ENV_STEP` sets the two devices' states to a choice their `Env` allows and changes nothing else; no
other choice is a step (R214). That the event carries the choice is the model's form (log 16). -/
def Obligations.EnvStepChangesDevicesOnly : Prop :=
  ∀ (P : Params) (s : State) (x y : DState) (rest : List Event), s.phase = .live →
    s.inbox = .envStep x y :: rest →
    busStep P s =
      if P.ppuDev.env s.ppu x = true ∧ P.aioDev.env s.aio y = true then
        .next { s with inbox := rest, ppu := x, aio := y }
      else .refused .envNotAllowed

/-- `TEARDOWN` ends the session: after it there is no step of any kind (R212). That the `TEARDOWN` step
itself keeps every field but the phase and the inbox is the model's reading (log 12, DEDUCED), which R212
does not say, so the statement is derived. -/
def Obligations.TeardownIsTerminal : Prop :=
  ∀ (P : Params) (s : State),
    (∀ rest, s.phase = .live → s.inbox = .teardown :: rest →
      busStep P s = .next { s with inbox := rest, phase := .tornDown }) ∧
    (s.phase = .tornDown → busStep P s = .refused .afterTeardown)

/-- With nothing issued the block does nothing: it issues no access of its own (20_memory.md R66). That
such a step is a wait and not the end of the run is the model's choice (log 9). -/
def Obligations.NothingIssuedNothingDone : Prop :=
  ∀ (P : Params) (s : State), s.inbox = [] → s.phase ≠ .tornDown → busStep P s = .next s

/-- Nothing unbinds a mapper in a live session (46_host_operations.md R213). That the `TEARDOWN` step, which
ends the session, leaves the field as it was is the model's reading (log 12, DEDUCED). -/
def Obligations.MapperStaysBound : Prop :=
  ∀ s t : State, s.phase = .live → s.mapperBound = true → step s = .next t → t.mapperBound = true

/-! ### The machine -/

/-- A step runs the decoded instruction: with a transaction word at the head of a live block's inbox, the
step is `exec` of the decoded word, in the state that has taken it. -/
def Obligations.StepRunsDecodedInstruction : Prop :=
  ∀ (s : State) (w : TWord) (rest : List Event), s.phase = .live → s.inbox = .transaction w :: rest →
    step s = exec (decode w) { s with inbox := rest }

/-- Decoding to an instruction and running its meaning is the Bus transaction of 41_bus_read.md R130 and
42_bus_write.md R150, so the machine's step is the block's. -/
def Obligations.StepIsBusStep : Prop :=
  (∀ (w : TWord) (s : State), exec (decode w) s =
    if wordOp w = 0 then busRead Config.params (wordAddr w) s
    else busWrite Config.params (wordAddr w) (wordData w) s) ∧
  ∀ s : State, step s = busStep Config.params s

/-- Transactions take effect in exactly the order issued, each once (20_memory.md R66): running as many
steps as transactions were issued is running the transactions one after another. That one step is one
transaction (log 1, DEDUCED), taken from an inbox of issued events (log 9), is the model's form. -/
def Obligations.TransactionsRunInIssueOrder : Prop :=
  ∀ (P : Params) (ws : List TWord) (rest : List Event) (s : State), s.phase = .live →
    runSteps P ws.length { s with inbox := ws.map .transaction ++ rest } =
      runWords P ws { s with inbox := rest }

/-- Only a bound mapper that breaks its contract can end a run with a fault (60_exceptions.md R226): the
store assertion and the decoder inconsistency cannot happen. -/
def Obligations.OnlyMapperContractFaults : Prop :=
  ∀ (P : Params) (s : State) (f : Fault), busStep P s = .fault f →
    f = .mapperContract ∧ s.mapperBound = true ∧
    ∃ w rest, s.inbox = .transaction w :: rest ∧ (decodeAddress (wordAddr w)).1 = .cartridgeSpace

/-- Memory is in canonical form at reset. -/
def Obligations.ResetMemoryIsCanonical : Prop := memoryWf Config.params State.reset

/-- Every step keeps all memory in canonical form and inside its capacity, from every state that has it
(10_state.md R40). -/
def Obligations.StepKeepsMemoryCanonical : Prop :=
  ∀ s t : State, memoryWf Config.params s → step s = .next t → memoryWf Config.params t

/-- The launch state meets the invariant of a run, for any mapper or none. -/
def Obligations.LaunchMeetsRunInvariant : Prop :=
  ∀ (P : Params) (mp : Option CartId), runInv P (launch P mp)

/-- If every mapper keeps its contract, no step faults, and every step keeps the invariant
(44_mapper_capability.md R183, 60_exceptions.md R220). The fault's check counts the storages the state
holds (log 14, DEDUCED); the invariant ties them to the mapper's own. -/
def Obligations.NoFaultUnderMapperContract : Prop :=
  ∀ (P : Params), (∀ id, keepsContract (P.mapper id)) → ∀ s, runInv P s →
    noFault (busStep P s) ∧ ∀ t, busStep P s = .next t → runInv P t

/-! ### What a transaction cannot learn -/

/-- While no mapper is bound, no transaction reads `cart` (10_state.md R29). -/
def Obligations.UnboundCartridgeIsUnread : Prop :=
  ∀ (P : Params) (w : TWord) (s : State) (c : Cart), s.mapperBound = false →
    busTransaction P w { s with cart := c } =
      mapNext (fun t => { t with cart := c }) (busTransaction P w s)

/-- Under policy `FIXED` nothing reads the latch: runs that differ in it only differ in it only
(10_state.md R24). -/
def Obligations.LatchIsUnreadUnderFixed : Prop :=
  ∀ (P : Params) (w : TWord) (s : State) (x : Byte), P.openBusPolicy = .fixed →
    mapNext (fun t => { t with dbLatch := 0 }) (busTransaction P w { s with dbLatch := x }) =
      mapNext (fun t => { t with dbLatch := 0 }) (busTransaction P w s)

/-- A transaction outside a device's window neither reads nor changes the device's state
(45_device_capability.md R199). -/
def Obligations.DevicesAreIsolated : Prop :=
  ∀ (P : Params) (w : TWord) (s : State) (x : DState),
    ((decodeAddress (wordAddr w)).1 ≠ .pictureUnitRegisters →
      busTransaction P w { s with ppu := x } =
        mapNext (fun t => { t with ppu := x }) (busTransaction P w s)) ∧
    ((decodeAddress (wordAddr w)).1 ≠ .audioAndIORegisters →
      busTransaction P w { s with aio := x } =
        mapNext (fun t => { t with aio := x }) (busTransaction P w s))
end

