-- ==== Sys2Proof/Laws/AddressMap.lean ====
section
/-! SUPPORT. What `Decode` answers, and the numbers the operand forms come to. -/

namespace Sys2Proof.Machine

theorem inWindow_iff (r : Region) (a : Addr) :
    inWindow r a = true ↔
      (regionBase r).toNat ≤ a.toNat ∧ a.toNat < (regionBase r).toNat + regionSize r := by
  simp [inWindow]

/-- `Decode` names a region exactly when the region's window holds the address. -/
theorem decodeAddress_region (a : Addr) (r : Region) :
    (decodeAddress a).1 = r ↔ inWindow r a = true := by
  have := a.isLt
  unfold decodeAddress
  rw [inWindow_iff]
  simp only [BitVec.le_def, BitVec.reduceToNat]
  cases r <;> simp only [regionBase, regionSize, BitVec.reduceToNat] <;>
    (split_ifs <;> simp <;> omega)

/-- The offset `Decode` returns is the distance from the base of the region it names. -/
theorem decodeAddress_offset (a : Addr) :
    (decodeAddress a).2 = windowOffset (decodeAddress a).1 a := by
  unfold decodeAddress
  split_ifs <;> rfl

/-- In its window, an address's offset is an exact difference: it neither borrows nor wraps. -/
theorem windowOffset_toNat {r : Region} {a : Addr} (h : inWindow r a = true) :
    (windowOffset r a).toNat = a.toNat - (regionBase r).toNat := by
  rw [inWindow_iff] at h
  rw [windowOffset, BitVec.toNat_sub_of_le (by simpa [BitVec.le_def] using h.1)]

theorem windowOffset_lt {r : Region} {a : Addr} (h : inWindow r a = true) :
    (windowOffset r a).toNat < regionSize r := by
  rw [windowOffset_toNat h]
  rw [inWindow_iff] at h
  omega

/-- Outside its window an address's offset is at or beyond the window's size: the difference wraps. -/
theorem windowOffset_ge {r : Region} {a : Addr} (h : inWindow r a = false) :
    regionSize r ≤ (windowOffset r a).toNat := by
  have := a.isLt
  have h : ¬ (inWindow r a = true) := by simp [h]
  rw [inWindow_iff] at h
  rw [windowOffset, BitVec.toNat_sub]
  cases r <;> simp [regionBase, regionSize] at h ⊢ <;> omega

theorem storeIndex_ram (off : Addr) : storeIndex .ram off = off.toNat % 0x0800 := by
  simp [storeIndex, reduceOffset, storeRegion, regionPeriod, BitVec.toNat_umod]

theorem storeIndex_exp (off : Addr) : storeIndex .exp off = off.toNat := by
  simp [storeIndex, reduceOffset, storeRegion, regionPeriod]

theorem storeIndex_sram (off : Addr) : storeIndex .sram off = off.toNat := by
  simp [storeIndex, reduceOffset, storeRegion, regionPeriod]

/-- An offset inside the window has its index inside the store (43_mirrored_register.md R171). -/
theorem storeIndex_lt {σ : StoreId} {off : Addr} (h : off.toNat < regionSize (storeRegion σ)) :
    storeIndex σ off < storeCap σ := by
  cases σ
  · rw [storeIndex_ram]
    exact Nat.mod_lt _ (by decide)
  · rw [storeIndex_exp]
    exact h
  · rw [storeIndex_sram]
    exact h

/-- The offset the picture unit receives. -/
theorem devOperand_ppu {a : Addr} (h : inWindow .pictureUnitRegisters a = true) :
    devOperand .ppu a = BitVec.ofNat 8 ((a.toNat - 0x2000) % 8) := by
  have ho := windowOffset_toNat h
  apply BitVec.eq_of_toNat_eq
  simp [devOperand, devOffset, reduceOffset, devRegion, regionPeriod, BitVec.toNat_umod, ho, regionBase]

/-- The offset the audio/IO unit receives. -/
theorem devOperand_aio {a : Addr} (h : inWindow .audioAndIORegisters a = true) :
    devOperand .aio a = BitVec.ofNat 8 (a.toNat - 0x4000) := by
  have ho := windowOffset_toNat h
  apply BitVec.eq_of_toNat_eq
  simp [devOperand, devOffset, reduceOffset, devRegion, regionPeriod, ho, regionBase]

end Sys2Proof.Machine
end

