-- ==== Sys2Proof/Laws/Memory.lean ====
section
/-! SUPPORT. The laws of sparse byte arrays: reading after writing, and the canonical form. -/

namespace Sys2Proof.Machine

@[simp] theorem Memory.read_nil (launch : Nat → Byte) (k : Nat) : Memory.read launch [] k = launch k := rfl

theorem Memory.read_erase (launch : Nat → Byte) (m : Memory) (k j : Nat) :
    Memory.read launch (Memory.erase m k) j = if j = k then launch j else Memory.read launch m j := by
  induction m with
  | nil => simp [Memory.erase]
  | cons c rest ih =>
    by_cases h : c.1 = k <;> by_cases hj : c.1 = j <;> simp_all [Memory.erase, Memory.read]

theorem Memory.mem_erase {m : Memory} {k : Nat} {c : Host.Cell} (h : c ∈ Memory.erase m k) :
    c ∈ m ∧ c.1 ≠ k := by
  induction m with
  | nil => simp [Memory.erase] at h
  | cons b rest ih =>
    by_cases hb : b.1 = k
    · rw [Memory.erase, if_pos hb] at h
      exact ⟨List.mem_cons_of_mem _ (ih h).1, (ih h).2⟩
    · rw [Memory.erase, if_neg hb] at h
      rcases List.mem_cons.1 h with rfl | h
      · exact ⟨List.mem_cons_self, hb⟩
      · exact ⟨List.mem_cons_of_mem _ (ih h).1, (ih h).2⟩

theorem Memory.read_insert (launch : Nat → Byte) (m : Memory) (k j : Nat) (v : Byte)
    (hk : ∀ c ∈ m, c.1 ≠ k) :
    Memory.read launch (Memory.insert m k v) j = if j = k then v else Memory.read launch m j := by
  induction m with
  | nil => simp [Memory.insert, Memory.read, eq_comm]
  | cons c rest ih =>
    have hc : c.1 ≠ k := hk c List.mem_cons_self
    have ih := ih fun c' h => hk c' (List.mem_cons_of_mem _ h)
    by_cases hlt : k < c.1
    · rw [Memory.insert, if_pos hlt]
      simp only [Memory.read, eq_comm]
    · rw [Memory.insert, if_neg hlt, Memory.read, ih, Memory.read]
      by_cases hj : c.1 = j
      · have : j ≠ k := hj ▸ hc
        simp [hj, this]
      · simp [hj]

/-- Reading after writing: the byte written at its index, every other byte as before. -/
theorem Memory.read_write (launch : Nat → Byte) (m : Memory) (k j : Nat) (v : Byte) :
    Memory.read launch (Memory.write launch m k v) j = if j = k then v else Memory.read launch m j := by
  rw [Memory.write]
  split
  · rename_i h
    rw [Memory.read_erase]
    split
    · rename_i hj
      rw [hj, h]
    · rfl
  · rw [Memory.read_insert _ _ _ _ _ fun c h => (Memory.mem_erase h).2, Memory.read_erase]
    split <;> rfl

/-- Memory with nothing listed is in canonical form. -/
theorem Memory.wf_nil (launch : Nat → Byte) (size : Nat) : Memory.wf launch size [] := by
  simp [Memory.wf]

theorem Memory.mem_insert {m : Memory} {k : Nat} {v : Byte} {c : Host.Cell} :
    c ∈ Memory.insert m k v ↔ c = (k, v) ∨ c ∈ m := by
  induction m with
  | nil => simp [Memory.insert]
  | cons b rest ih =>
    by_cases h : k < b.1
    · simp [Memory.insert, h]
    · simp only [Memory.insert, h, if_false, List.mem_cons, ih]
      tauto

theorem Memory.pairwise_erase {m : Memory} (k : Nat) (h : m.Pairwise fun c c' => c.1 < c'.1) :
    (Memory.erase m k).Pairwise fun c c' => c.1 < c'.1 := by
  induction m with
  | nil => simp [Memory.erase]
  | cons b rest ih =>
    obtain ⟨hb, hr⟩ := List.pairwise_cons.1 h
    by_cases hk : b.1 = k
    · simpa [Memory.erase, hk] using ih hr
    · rw [Memory.erase, if_neg hk]
      exact List.pairwise_cons.2 ⟨fun c hc => hb c (Memory.mem_erase hc).1, ih hr⟩

theorem Memory.pairwise_insert {m : Memory} {k : Nat} (v : Byte)
    (h : m.Pairwise fun c c' => c.1 < c'.1) (hk : ∀ c ∈ m, c.1 ≠ k) :
    (Memory.insert m k v).Pairwise fun c c' => c.1 < c'.1 := by
  induction m with
  | nil => simp [Memory.insert]
  | cons b rest ih =>
    obtain ⟨hb, hr⟩ := List.pairwise_cons.1 h
    have hbk : b.1 ≠ k := hk b List.mem_cons_self
    by_cases hlt : k < b.1
    · rw [Memory.insert, if_pos hlt]
      refine List.pairwise_cons.2 ⟨fun c hc => ?_, h⟩
      rcases List.mem_cons.1 hc with rfl | hc
      · exact hlt
      · exact hlt.trans (hb c hc)
    · rw [Memory.insert, if_neg hlt]
      refine List.pairwise_cons.2 ⟨fun c hc => ?_, ih hr fun c hc => hk c (List.mem_cons_of_mem _ hc)⟩
      rcases Memory.mem_insert.1 hc with rfl | hc
      · exact lt_of_le_of_ne (not_lt.1 hlt) hbk
      · exact hb c hc

/-- Every write keeps the canonical form. -/
theorem Memory.wf_write {launch : Nat → Byte} {size : Nat} {m : Memory} (h : Memory.wf launch size m)
    {k : Nat} (hk : k < size) (v : Byte) : Memory.wf launch size (Memory.write launch m k v) := by
  have he : ∀ c ∈ Memory.erase m k, c.1 < size ∧ c.2 ≠ launch c.1 := fun c hc => h.2 c (Memory.mem_erase hc).1
  rw [Memory.write]
  split
  · exact ⟨Memory.pairwise_erase k h.1, he⟩
  · rename_i hv
    refine ⟨Memory.pairwise_insert v (Memory.pairwise_erase k h.1) fun c hc => (Memory.mem_erase hc).2, ?_⟩
    intro c hc
    rcases Memory.mem_insert.1 hc with rfl | hc
    · exact ⟨hk, hv⟩
    · exact he c hc

end Sys2Proof.Machine
end

