-- ==== Sys2Proof/Laws/State.lean ====
section
/-! SUPPORT. One lemma per field per update of the state, each true by rfl. -/

namespace Sys2Proof.Machine

/-! An answered read. -/

@[simp] theorem answer_ram (v : Byte) (s : State) : (answer v s).ram = s.ram := rfl
@[simp] theorem answer_exp (v : Byte) (s : State) : (answer v s).exp = s.exp := rfl
@[simp] theorem answer_sram (v : Byte) (s : State) : (answer v s).sram = s.sram := rfl
@[simp] theorem answer_dbLatch (v : Byte) (s : State) : (answer v s).dbLatch = v := rfl
@[simp] theorem answer_mapperBound (v : Byte) (s : State) : (answer v s).mapperBound = s.mapperBound := rfl
@[simp] theorem answer_ppu (v : Byte) (s : State) : (answer v s).ppu = s.ppu := rfl
@[simp] theorem answer_aio (v : Byte) (s : State) : (answer v s).aio = s.aio := rfl
@[simp] theorem answer_cart (v : Byte) (s : State) : (answer v s).cart = s.cart := rfl
@[simp] theorem answer_phase (v : Byte) (s : State) : (answer v s).phase = s.phase := rfl
@[simp] theorem answer_inbox (v : Byte) (s : State) : (answer v s).inbox = s.inbox := rfl
@[simp] theorem answer_rdata (v : Byte) (s : State) : (answer v s).rdata = some v := rfl

/-! An unmapped read. -/

@[simp] theorem answerOpenBus_ram (P : Params) (s : State) : (answerOpenBus P s).ram = s.ram := rfl
@[simp] theorem answerOpenBus_exp (P : Params) (s : State) : (answerOpenBus P s).exp = s.exp := rfl
@[simp] theorem answerOpenBus_sram (P : Params) (s : State) : (answerOpenBus P s).sram = s.sram := rfl
@[simp] theorem answerOpenBus_dbLatch (P : Params) (s : State) : (answerOpenBus P s).dbLatch = s.dbLatch := rfl
@[simp] theorem answerOpenBus_mapperBound (P : Params) (s : State) : (answerOpenBus P s).mapperBound = s.mapperBound := rfl
@[simp] theorem answerOpenBus_ppu (P : Params) (s : State) : (answerOpenBus P s).ppu = s.ppu := rfl
@[simp] theorem answerOpenBus_aio (P : Params) (s : State) : (answerOpenBus P s).aio = s.aio := rfl
@[simp] theorem answerOpenBus_cart (P : Params) (s : State) : (answerOpenBus P s).cart = s.cart := rfl
@[simp] theorem answerOpenBus_phase (P : Params) (s : State) : (answerOpenBus P s).phase = s.phase := rfl
@[simp] theorem answerOpenBus_inbox (P : Params) (s : State) : (answerOpenBus P s).inbox = s.inbox := rfl
@[simp] theorem answerOpenBus_rdata (P : Params) (s : State) : (answerOpenBus P s).rdata = some (openBus P s) := rfl

/-! The end of a write. -/

@[simp] theorem drive_ram (d : Byte) (s : State) : (drive d s).ram = s.ram := rfl
@[simp] theorem drive_exp (d : Byte) (s : State) : (drive d s).exp = s.exp := rfl
@[simp] theorem drive_sram (d : Byte) (s : State) : (drive d s).sram = s.sram := rfl
@[simp] theorem drive_dbLatch (d : Byte) (s : State) : (drive d s).dbLatch = d := rfl
@[simp] theorem drive_mapperBound (d : Byte) (s : State) : (drive d s).mapperBound = s.mapperBound := rfl
@[simp] theorem drive_ppu (d : Byte) (s : State) : (drive d s).ppu = s.ppu := rfl
@[simp] theorem drive_aio (d : Byte) (s : State) : (drive d s).aio = s.aio := rfl
@[simp] theorem drive_cart (d : Byte) (s : State) : (drive d s).cart = s.cart := rfl
@[simp] theorem drive_phase (d : Byte) (s : State) : (drive d s).phase = s.phase := rfl
@[simp] theorem drive_inbox (d : Byte) (s : State) : (drive d s).inbox = s.inbox := rfl
@[simp] theorem drive_rdata (d : Byte) (s : State) : (drive d s).rdata = none := rfl

/-! `LOAD_CARTRIDGE`. -/

@[simp] theorem loadCartridge_ram (P : Params) (mp : CartId) (s : State) : (loadCartridge P mp s).ram = s.ram := rfl
@[simp] theorem loadCartridge_exp (P : Params) (mp : CartId) (s : State) : (loadCartridge P mp s).exp = s.exp := rfl
@[simp] theorem loadCartridge_sram (P : Params) (mp : CartId) (s : State) : (loadCartridge P mp s).sram = s.sram := rfl
@[simp] theorem loadCartridge_dbLatch (P : Params) (mp : CartId) (s : State) : (loadCartridge P mp s).dbLatch = s.dbLatch := rfl
@[simp] theorem loadCartridge_mapperBound (P : Params) (mp : CartId) (s : State) : (loadCartridge P mp s).mapperBound = true := rfl
@[simp] theorem loadCartridge_ppu (P : Params) (mp : CartId) (s : State) : (loadCartridge P mp s).ppu = s.ppu := rfl
@[simp] theorem loadCartridge_aio (P : Params) (mp : CartId) (s : State) : (loadCartridge P mp s).aio = s.aio := rfl
@[simp] theorem loadCartridge_cart (P : Params) (mp : CartId) (s : State) : (loadCartridge P mp s).cart = freshCart P mp := rfl
@[simp] theorem loadCartridge_phase (P : Params) (mp : CartId) (s : State) : (loadCartridge P mp s).phase = s.phase := rfl
@[simp] theorem loadCartridge_inbox (P : Params) (mp : CartId) (s : State) : (loadCartridge P mp s).inbox = s.inbox := rfl
@[simp] theorem loadCartridge_rdata (P : Params) (mp : CartId) (s : State) : (loadCartridge P mp s).rdata = s.rdata := rfl

/-! `ENV_STEP`. -/

@[simp] theorem envStep_ram (x y : DState) (s : State) : (envStep x y s).ram = s.ram := rfl
@[simp] theorem envStep_exp (x y : DState) (s : State) : (envStep x y s).exp = s.exp := rfl
@[simp] theorem envStep_sram (x y : DState) (s : State) : (envStep x y s).sram = s.sram := rfl
@[simp] theorem envStep_dbLatch (x y : DState) (s : State) : (envStep x y s).dbLatch = s.dbLatch := rfl
@[simp] theorem envStep_mapperBound (x y : DState) (s : State) : (envStep x y s).mapperBound = s.mapperBound := rfl
@[simp] theorem envStep_ppu (x y : DState) (s : State) : (envStep x y s).ppu = x := rfl
@[simp] theorem envStep_aio (x y : DState) (s : State) : (envStep x y s).aio = y := rfl
@[simp] theorem envStep_cart (x y : DState) (s : State) : (envStep x y s).cart = s.cart := rfl
@[simp] theorem envStep_phase (x y : DState) (s : State) : (envStep x y s).phase = s.phase := rfl
@[simp] theorem envStep_inbox (x y : DState) (s : State) : (envStep x y s).inbox = s.inbox := rfl
@[simp] theorem envStep_rdata (x y : DState) (s : State) : (envStep x y s).rdata = s.rdata := rfl

/-! `TEARDOWN`. -/

@[simp] theorem teardown_ram (s : State) : (teardown s).ram = s.ram := rfl
@[simp] theorem teardown_exp (s : State) : (teardown s).exp = s.exp := rfl
@[simp] theorem teardown_sram (s : State) : (teardown s).sram = s.sram := rfl
@[simp] theorem teardown_dbLatch (s : State) : (teardown s).dbLatch = s.dbLatch := rfl
@[simp] theorem teardown_mapperBound (s : State) : (teardown s).mapperBound = s.mapperBound := rfl
@[simp] theorem teardown_ppu (s : State) : (teardown s).ppu = s.ppu := rfl
@[simp] theorem teardown_aio (s : State) : (teardown s).aio = s.aio := rfl
@[simp] theorem teardown_cart (s : State) : (teardown s).cart = s.cart := rfl
@[simp] theorem teardown_phase (s : State) : (teardown s).phase = .tornDown := rfl
@[simp] theorem teardown_inbox (s : State) : (teardown s).inbox = s.inbox := rfl
@[simp] theorem teardown_rdata (s : State) : (teardown s).rdata = s.rdata := rfl

/-! A transaction issued. -/

@[simp] theorem withFetchWord_ram (s : State) (n w : Nat) : (s.withFetchWord n w).ram = s.ram := rfl
@[simp] theorem withFetchWord_exp (s : State) (n w : Nat) : (s.withFetchWord n w).exp = s.exp := rfl
@[simp] theorem withFetchWord_sram (s : State) (n w : Nat) : (s.withFetchWord n w).sram = s.sram := rfl
@[simp] theorem withFetchWord_dbLatch (s : State) (n w : Nat) : (s.withFetchWord n w).dbLatch = s.dbLatch := rfl
@[simp] theorem withFetchWord_mapperBound (s : State) (n w : Nat) : (s.withFetchWord n w).mapperBound = s.mapperBound := rfl
@[simp] theorem withFetchWord_ppu (s : State) (n w : Nat) : (s.withFetchWord n w).ppu = s.ppu := rfl
@[simp] theorem withFetchWord_aio (s : State) (n w : Nat) : (s.withFetchWord n w).aio = s.aio := rfl
@[simp] theorem withFetchWord_cart (s : State) (n w : Nat) : (s.withFetchWord n w).cart = s.cart := rfl
@[simp] theorem withFetchWord_phase (s : State) (n w : Nat) : (s.withFetchWord n w).phase = s.phase := rfl
@[simp] theorem withFetchWord_inbox (s : State) (n w : Nat) : (s.withFetchWord n w).inbox = .transaction (BitVec.ofNat 25 w) :: s.inbox := rfl
@[simp] theorem withFetchWord_rdata (s : State) (n w : Nat) : (s.withFetchWord n w).rdata = s.rdata := rfl

/-! `CONSTRUCT`. -/

@[simp] theorem construct_ram (P : Params) (mp : Option CartId) (s : State) : (construct P mp s).ram = (launch P mp).ram := rfl
@[simp] theorem construct_exp (P : Params) (mp : Option CartId) (s : State) : (construct P mp s).exp = (launch P mp).exp := rfl
@[simp] theorem construct_sram (P : Params) (mp : Option CartId) (s : State) : (construct P mp s).sram = (launch P mp).sram := rfl
@[simp] theorem construct_dbLatch (P : Params) (mp : Option CartId) (s : State) : (construct P mp s).dbLatch = (launch P mp).dbLatch := rfl
@[simp] theorem construct_mapperBound (P : Params) (mp : Option CartId) (s : State) : (construct P mp s).mapperBound = (launch P mp).mapperBound := rfl
@[simp] theorem construct_ppu (P : Params) (mp : Option CartId) (s : State) : (construct P mp s).ppu = (launch P mp).ppu := rfl
@[simp] theorem construct_aio (P : Params) (mp : Option CartId) (s : State) : (construct P mp s).aio = (launch P mp).aio := rfl
@[simp] theorem construct_cart (P : Params) (mp : Option CartId) (s : State) : (construct P mp s).cart = (launch P mp).cart := rfl
@[simp] theorem construct_phase (P : Params) (mp : Option CartId) (s : State) : (construct P mp s).phase = (launch P mp).phase := rfl
@[simp] theorem construct_inbox (P : Params) (mp : Option CartId) (s : State) : (construct P mp s).inbox = s.inbox := rfl
@[simp] theorem construct_rdata (P : Params) (mp : Option CartId) (s : State) : (construct P mp s).rdata = (launch P mp).rdata := rfl

/-! The launch state. -/

@[simp] theorem launch_ram (P : Params) (mp : Option CartId) : (launch P mp).ram = [] := rfl
@[simp] theorem launch_exp (P : Params) (mp : Option CartId) : (launch P mp).exp = [] := rfl
@[simp] theorem launch_sram (P : Params) (mp : Option CartId) : (launch P mp).sram = [] := rfl
@[simp] theorem launch_dbLatch (P : Params) (mp : Option CartId) : (launch P mp).dbLatch = P.initLatch := rfl
@[simp] theorem launch_mapperBound (P : Params) (mp : Option CartId) : (launch P mp).mapperBound = mp.isSome := rfl
@[simp] theorem launch_ppu (P : Params) (mp : Option CartId) : (launch P mp).ppu = P.ppuDev.d0 := rfl
@[simp] theorem launch_aio (P : Params) (mp : Option CartId) : (launch P mp).aio = P.aioDev.d0 := rfl
@[simp] theorem launch_cart (P : Params) (mp : Option CartId) : (launch P mp).cart = (match mp with | some id => freshCart P id | none => noCart) := rfl
@[simp] theorem launch_phase (P : Params) (mp : Option CartId) : (launch P mp).phase = .live := rfl
@[simp] theorem launch_inbox (P : Params) (mp : Option CartId) : (launch P mp).inbox = [] := rfl
@[simp] theorem launch_rdata (P : Params) (mp : Option CartId) : (launch P mp).rdata = none := rfl

/-! One store replaced, one device replaced: the other fields. -/

@[simp] theorem withStore_dbLatch (s : State) (σ : StoreId) (m : Memory) : (withStore s σ m).dbLatch = s.dbLatch := by
  cases σ <;> rfl
@[simp] theorem withStore_mapperBound (s : State) (σ : StoreId) (m : Memory) : (withStore s σ m).mapperBound = s.mapperBound := by
  cases σ <;> rfl
@[simp] theorem withStore_ppu (s : State) (σ : StoreId) (m : Memory) : (withStore s σ m).ppu = s.ppu := by
  cases σ <;> rfl
@[simp] theorem withStore_aio (s : State) (σ : StoreId) (m : Memory) : (withStore s σ m).aio = s.aio := by
  cases σ <;> rfl
@[simp] theorem withStore_cart (s : State) (σ : StoreId) (m : Memory) : (withStore s σ m).cart = s.cart := by
  cases σ <;> rfl
@[simp] theorem withStore_phase (s : State) (σ : StoreId) (m : Memory) : (withStore s σ m).phase = s.phase := by
  cases σ <;> rfl
@[simp] theorem withStore_inbox (s : State) (σ : StoreId) (m : Memory) : (withStore s σ m).inbox = s.inbox := by
  cases σ <;> rfl
@[simp] theorem withStore_rdata (s : State) (σ : StoreId) (m : Memory) : (withStore s σ m).rdata = s.rdata := by
  cases σ <;> rfl
@[simp] theorem withDevice_ram (s : State) (δ : DevId) (x : DState) : (withDevice s δ x).ram = s.ram := by
  cases δ <;> rfl
@[simp] theorem withDevice_exp (s : State) (δ : DevId) (x : DState) : (withDevice s δ x).exp = s.exp := by
  cases δ <;> rfl
@[simp] theorem withDevice_sram (s : State) (δ : DevId) (x : DState) : (withDevice s δ x).sram = s.sram := by
  cases δ <;> rfl
@[simp] theorem withDevice_dbLatch (s : State) (δ : DevId) (x : DState) : (withDevice s δ x).dbLatch = s.dbLatch := by
  cases δ <;> rfl
@[simp] theorem withDevice_mapperBound (s : State) (δ : DevId) (x : DState) : (withDevice s δ x).mapperBound = s.mapperBound := by
  cases δ <;> rfl
@[simp] theorem withDevice_cart (s : State) (δ : DevId) (x : DState) : (withDevice s δ x).cart = s.cart := by
  cases δ <;> rfl
@[simp] theorem withDevice_phase (s : State) (δ : DevId) (x : DState) : (withDevice s δ x).phase = s.phase := by
  cases δ <;> rfl
@[simp] theorem withDevice_inbox (s : State) (δ : DevId) (x : DState) : (withDevice s δ x).inbox = s.inbox := by
  cases δ <;> rfl
@[simp] theorem withDevice_rdata (s : State) (δ : DevId) (x : DState) : (withDevice s δ x).rdata = s.rdata := by
  cases δ <;> rfl

@[simp] theorem storeCells_withStore (s : State) (σ ρ : StoreId) (m : Memory) :
    storeCells (withStore s σ m) ρ = if ρ = σ then m else storeCells s ρ := by
  cases σ <;> cases ρ <;> rfl

@[simp] theorem devState_withDevice (s : State) (δ ε : DevId) (x : DState) :
    devState (withDevice s δ x) ε = if ε = δ then x else devState s ε := by
  cases δ <;> cases ε <;> rfl

/-! What stores and device states are read from. -/

@[simp] theorem storeCells_withDevice (s : State) (δ : DevId) (x : DState) (σ : StoreId) :
    storeCells (withDevice s δ x) σ = storeCells s σ := by
  cases δ <;> cases σ <;> rfl

@[simp] theorem devState_withStore (s : State) (σ : StoreId) (m : Memory) (δ : DevId) :
    devState (withStore s σ m) δ = devState s δ := by
  cases σ <;> cases δ <;> rfl

@[simp] theorem storeCells_answer (v : Byte) (s : State) (σ : StoreId) :
    storeCells (answer v s) σ = storeCells s σ := by
  cases σ <;> rfl

@[simp] theorem storeCells_answerOpenBus (P : Params) (s : State) (σ : StoreId) :
    storeCells (answerOpenBus P s) σ = storeCells s σ := by
  cases σ <;> rfl

@[simp] theorem storeCells_drive (d : Byte) (s : State) (σ : StoreId) :
    storeCells (drive d s) σ = storeCells s σ := by
  cases σ <;> rfl

@[simp] theorem storeCells_launch (P : Params) (mp : Option CartId) (σ : StoreId) :
    storeCells (launch P mp) σ = [] := by
  cases σ <;> rfl

/-- A launch with a mapper is the launch with none after `LOAD_CARTRIDGE` (log 7). -/
theorem launch_some (P : Params) (mp : CartId) :
    launch P (some mp) = loadCartridge P mp (launch P none) := rfl

/-- A store's byte depends on its cells only. -/
theorem storeByte_congr (P : Params) {s t : State} {σ : StoreId} (h : storeCells t σ = storeCells s σ)
    (i : Nat) : storeByte P t σ i = storeByte P s σ i := by
  rw [storeByte, storeByte, h]

end Sys2Proof.Machine
end

