-- ==== Sys2Proof/Laws/Ops.lean ====
section
/-! SUPPORT. For each shared operation, once, everything it can do. -/

namespace Sys2Proof.Machine

/-! ### Stores -/

/-- A store after one byte is set: that byte, and every other byte of every store as before. -/
theorem storeByte_setStoreByte (P : Params) (s : State) (σ ρ : StoreId) (i j : Nat) (v : Byte) :
    storeByte P (setStoreByte P s σ i v) ρ j = if ρ = σ ∧ j = i then v else storeByte P s ρ j := by
  unfold storeByte setStoreByte
  rw [storeCells_withStore]
  by_cases h : ρ = σ
  · subst h
    simp [Memory.read_write]
  · simp [h]

/-- A read in a store's window is answered with the byte its address names. -/
theorem readStore_next (P : Params) {σ : StoreId} {a : Addr} (h : inWindow (storeRegion σ) a = true)
    (s : State) :
    readStore P σ a s =
      .next (answer (storeByte P s σ (storeIndex σ (windowOffset (storeRegion σ) a))) s) := by
  have := windowOffset_lt h
  simp [readStore, readAt, offsetInRange, this]

/-- A store read outside the store's window stops on the component's assertion. -/
theorem readStore_fault (P : Params) {σ : StoreId} {a : Addr} (h : inWindow (storeRegion σ) a = false)
    (s : State) : readStore P σ a s = .fault .storeIndexAssert := by
  have := windowOffset_ge h
  simp [readStore, readAt, offsetInRange, Nat.not_lt.2 this]

/-- A write in a store's window sets the byte its address names. -/
theorem writeStore_next (P : Params) {σ : StoreId} {a : Addr} (h : inWindow (storeRegion σ) a = true)
    (d : Byte) (s : State) :
    writeStore P σ a d s =
      .next (drive d (setStoreByte P s σ (storeIndex σ (windowOffset (storeRegion σ) a)) d)) := by
  have := windowOffset_lt h
  simp [writeStore, writeAt, offsetInRange, this]

/-- A store write outside the store's window stops on the component's assertion. -/
theorem writeStore_fault (P : Params) {σ : StoreId} {a : Addr} (h : inWindow (storeRegion σ) a = false)
    (d : Byte) (s : State) : writeStore P σ a d s = .fault .storeIndexAssert := by
  have := windowOffset_ge h
  simp [writeStore, writeAt, offsetInRange, Nat.not_lt.2 this]

/-- Every answer of a store read. -/
theorem readStore_cases {P : Params} {σ : StoreId} {a : Addr} {s : State} {r : Result}
    (h : readStore P σ a s = r) :
    (inWindow (storeRegion σ) a = true ∧
      r = .next (answer (storeByte P s σ (storeIndex σ (windowOffset (storeRegion σ) a))) s)) ∨
    (inWindow (storeRegion σ) a = false ∧ r = .fault .storeIndexAssert) := by
  subst h
  cases hw : inWindow (storeRegion σ) a
  · exact .inr ⟨rfl, readStore_fault P hw s⟩
  · exact .inl ⟨rfl, readStore_next P hw s⟩

/-- Every answer of a store write. -/
theorem writeStore_cases {P : Params} {σ : StoreId} {a : Addr} {d : Byte} {s : State} {r : Result}
    (h : writeStore P σ a d s = r) :
    (inWindow (storeRegion σ) a = true ∧
      r = .next (drive d (setStoreByte P s σ (storeIndex σ (windowOffset (storeRegion σ) a)) d))) ∨
    (inWindow (storeRegion σ) a = false ∧ r = .fault .storeIndexAssert) := by
  subst h
  cases hw : inWindow (storeRegion σ) a
  · exact .inr ⟨rfl, writeStore_fault P hw d s⟩
  · exact .inl ⟨rfl, writeStore_next P hw d s⟩

/-! ### Devices -/

/-- Every answer of a device read. -/
theorem readDevice_cases {P : Params} {δ : DevId} {a : Addr} {s : State} {r : Result}
    (h : readDevice P δ a s = r) :
    (inWindow (devRegion δ) a = true ∧ devBound P δ = true ∧
      r = .next (answer (callRead P s δ (devOperand δ a)).1
        (withDevice s δ (callRead P s δ (devOperand δ a)).2))) ∨
    (inWindow (devRegion δ) a = true ∧ devBound P δ = false ∧ r = .next (answerOpenBus P s)) ∨
    (inWindow (devRegion δ) a = false ∧ r = .fault .decoderInconsistency) := by
  subst h
  cases hw : inWindow (devRegion δ) a <;> cases hb : devBound P δ <;> simp [readDevice, hw, hb]

/-- Every answer of a device write. -/
theorem writeDevice_cases {P : Params} {δ : DevId} {a : Addr} {d : Byte} {s : State} {r : Result}
    (h : writeDevice P δ a d s = r) :
    (inWindow (devRegion δ) a = true ∧ devBound P δ = true ∧
      r = .next (drive d (withDevice s δ (callWrite P s δ (devOperand δ a) d)))) ∨
    (inWindow (devRegion δ) a = true ∧ devBound P δ = false ∧ r = .next (drive d s)) ∨
    (inWindow (devRegion δ) a = false ∧ r = .fault .decoderInconsistency) := by
  subst h
  cases hw : inWindow (devRegion δ) a <;> cases hb : devBound P δ <;> simp [writeDevice, hw, hb]

/-! ### The cartridge -/

/-- What `resolve` answers: the mapper's translation, where it names a byte of the cartridge. -/
theorem resolve_eq_some {P : Params} {c : Cart} {a : Addr} {t : Translation} :
    resolve P c a = some t ↔ callTranslate P c a = t ∧ t.sid < c.stor.length ∧
      t.off < (P.mapper c.id).size t.sid := by
  unfold resolve namesByte
  split
  · rename_i h
    rw [decide_eq_true_eq] at h
    constructor
    · intro ht
      cases ht
      exact ⟨rfl, h⟩
    · rintro ⟨rfl, -⟩
      rfl
  · rename_i h
    rw [decide_eq_true_eq] at h
    constructor
    · intro ht
      cases ht
    · rintro ⟨rfl, ht⟩
      exact absurd ht h

/-- A storage after one byte is set: that byte, and every other byte of every storage as before. -/
theorem cartByte_setCartByte (P : Params) (c : Cart) {sid : Nat} (hs : sid < c.stor.length)
    (o sid' o' : Nat) (v : Byte) :
    cartByte P (setCartByte P c sid o v) sid' o' =
      if sid' = sid ∧ o' = o then v else cartByte P c sid' o' := by
  unfold cartByte setCartByte
  by_cases h : sid' = sid
  · subst h
    simp [List.getD_eq_getElem?_getD, hs, Memory.read_write]
  · simp [List.getD_eq_getElem?_getD, h, Ne.symm h]

/-- Every answer of a CartridgeSpace read. -/
theorem readCart_cases {P : Params} {a : Addr} {s : State} {r : Result} (h : readCart P a s = r) :
    (∃ t, inWindow .cartridgeSpace a = true ∧ s.mapperBound = true ∧ resolve P s.cart a = some t ∧
      r = .next (answer (cartByte P s.cart t.sid t.off) s)) ∨
    (inWindow .cartridgeSpace a = true ∧ s.mapperBound = true ∧ resolve P s.cart a = none ∧
      r = .fault .mapperContract) ∨
    (inWindow .cartridgeSpace a = true ∧ s.mapperBound = false ∧ r = .next (answerOpenBus P s)) ∨
    (inWindow .cartridgeSpace a = false ∧ r = .fault .decoderInconsistency) := by
  subst h
  cases hw : inWindow .cartridgeSpace a <;> cases hb : s.mapperBound <;>
    cases hr : resolve P s.cart a <;> simp [readCart, hw, hb, hr]

/-- Every answer of a CartridgeSpace write. -/
theorem writeCart_cases {P : Params} {a : Addr} {d : Byte} {s : State} {r : Result}
    (h : writeCart P a d s = r) :
    (∃ t, inWindow .cartridgeSpace a = true ∧ s.mapperBound = true ∧
      resolve P (forward P s.cart a d) a = some t ∧
      r = .next (drive d { s with cart := gatedStore P (forward P s.cart a d) t d })) ∨
    (inWindow .cartridgeSpace a = true ∧ s.mapperBound = true ∧
      resolve P (forward P s.cart a d) a = none ∧ r = .fault .mapperContract) ∨
    (inWindow .cartridgeSpace a = true ∧ s.mapperBound = false ∧ r = .next (drive d s)) ∨
    (inWindow .cartridgeSpace a = false ∧ r = .fault .decoderInconsistency) := by
  subst h
  cases hw : inWindow .cartridgeSpace a <;> cases hb : s.mapperBound <;>
    cases hr : resolve P (forward P s.cart a d) a <;> simp [writeCart, hw, hb, hr]

/-- A fresh cartridge is shaped as its mapper says. -/
theorem cartWf_freshCart (P : Params) (mp : CartId) : cartWf P (freshCart P mp) := by
  refine ⟨by simp [freshCart], fun sid => ?_⟩
  have : (freshCart P mp).stor.getD sid [] = [] := by
    by_cases h : sid < (P.mapper mp).storages <;>
      simp [freshCart, List.getD_eq_getElem?_getD, h]
  rw [this]
  exact Memory.wf_nil _ _

/-- Setting a byte a storage has keeps the cartridge's shape. -/
theorem cartWf_setCartByte {P : Params} {c : Cart} (h : cartWf P c) (sid : Nat) {o : Nat}
    (ho : o < (P.mapper c.id).size sid) (v : Byte) : cartWf P (setCartByte P c sid o v) := by
  refine ⟨by simpa [setCartByte] using h.1, fun sid' => ?_⟩
  by_cases hs : sid' = sid
  · subst hs
    by_cases hl : sid' < c.stor.length
    · simpa [setCartByte, List.getD_eq_getElem?_getD, hl] using Memory.wf_write (h.2 sid') ho v
    · simp only [setCartByte, List.getD_eq_getElem?_getD, hl, List.length_set, not_false_eq_true,
        getElem?_neg, Option.getD_none]
      exact Memory.wf_nil _ _
  · simpa [setCartByte, List.getD_eq_getElem?_getD, Ne.symm hs] using h.2 sid'

/-- The forward keeps the cartridge's shape: it changes no storage. -/
theorem cartWf_forward {P : Params} {c : Cart} (h : cartWf P c) (a : Addr) (d : Byte) :
    cartWf P (forward P c a d) := h

/-! ### Taking an event -/

/-- Every transaction a step runs was the oldest event of a live block, and has been taken. -/
theorem fetch_transaction {P : Params} {s t : State} {w : TWord}
    (h : fetch P s = .transaction w t) :
    s.phase = .live ∧ ∃ rest, s.inbox = .transaction w :: rest ∧ t = { s with inbox := rest } := by
  unfold fetch at h
  split at h
  · cases h
  · cases h
  · cases h
  · rename_i e rest hp hi
    cases e <;> simp only [takeLive] at h
    · cases h
      exact ⟨hp, rest, hi, rfl⟩
    · cases h
    · cases h
    · split at h <;> cases h
    · cases h
  · rename_i e rest hp hi
    cases e <;> cases h

/-- Every next state of a step that runs no transaction. -/
theorem fetch_next {P : Params} {s t : State} (h : fetch P s = .done (.next t)) :
    (s.inbox = [] ∧ s.phase ≠ .tornDown ∧ t = s) ∨
    (∃ mp rest, s.phase = .beforeConstruct ∧ s.inbox = .construct mp :: rest ∧
      t = { launch P mp with inbox := rest }) ∨
    (∃ mp rest, s.phase = .live ∧ s.inbox = .loadCartridge mp :: rest ∧
      t = loadCartridge P mp { s with inbox := rest }) ∨
    (∃ x y rest, s.phase = .live ∧ s.inbox = .envStep x y :: rest ∧ envAllows P s x y = true ∧
      t = envStep x y { s with inbox := rest }) ∨
    (∃ rest, s.phase = .live ∧ s.inbox = .teardown :: rest ∧
      t = teardown { s with inbox := rest }) := by
  unfold fetch at h
  split at h
  · cases h
  · rename_i hp hi
    cases h
    exact .inl ⟨hi, by simp [hp], rfl⟩
  · rename_i hp hi
    cases h
    exact .inl ⟨hi, by simp [hp], rfl⟩
  · rename_i e rest hp hi
    cases e <;> simp only [takeLive] at h
    · cases h
    · cases h
    · cases h
      exact .inr (.inr (.inl ⟨_, rest, hp, hi, rfl⟩))
    · split at h
      · rename_i ha
        cases h
        exact .inr (.inr (.inr (.inl ⟨_, _, rest, hp, hi, ha, rfl⟩)))
      · cases h
    · cases h
      exact .inr (.inr (.inr (.inr ⟨rest, hp, hi, rfl⟩)))
  · rename_i e rest hp hi
    cases e <;> simp only [takeBefore] at h
    · cases h
    · cases h
      exact .inr (.inl ⟨_, rest, hp, hi, rfl⟩)
    · cases h
    · cases h
    · cases h

/-- Taking an event never faults. -/
theorem fetch_no_fault {P : Params} {s : State} {f : Fault} : fetch P s ≠ .done (.fault f) := by
  intro h
  unfold fetch at h
  split at h
  · cases h
  · cases h
  · cases h
  · rename_i e rest _ _
    cases e <;> simp only [takeLive] at h
    · cases h
    · cases h
    · cases h
    · split at h <;> cases h
    · cases h
  · rename_i e rest _ _
    cases e <;> cases h

end Sys2Proof.Machine
end

