-- ==== Sys2Proof/Laws/PerInstr.lean ====
section
/-! SUPPORT. The family `EncodeFields`: for each instruction, the fields of its word are its operands
(30_encoding.md R81, R82). -/

namespace Sys2Proof

/-- `W = (op << 24) | (addr << 8) | data` (R81), as a sum: the fields do not overlap. -/
theorem assemble_toNat (op : BitVec 1) (a : Addr) (d : Byte) :
    (assemble op a d).toNat = op.toNat * 2 ^ 24 + a.toNat * 2 ^ 8 + d.toNat := by
  have h : (assemble op a d).toNat = (op.toNat <<< 16 ||| a.toNat) <<< 8 ||| d.toNat := by
    show (op ++ a ++ d : BitVec (1 + 16 + 8)).toNat = _
    rw [BitVec.toNat_append, BitVec.toNat_append]
  rw [h, ← Nat.shiftLeft_add_eq_or_of_lt d.isLt, ← Nat.shiftLeft_add_eq_or_of_lt a.isLt,
    Nat.shiftLeft_eq, Nat.shiftLeft_eq]
  omega

theorem wordOp_toNat (w : TWord) : (wordOp w).toNat = w.toNat / 2 ^ 24 := by
  have := w.isLt
  simp only [wordOp, BitVec.extractLsb'_toNat, Nat.shiftRight_eq_div_pow]
  omega

theorem wordAddr_toNat (w : TWord) : (wordAddr w).toNat = w.toNat / 2 ^ 8 % 2 ^ 16 := by
  simp only [wordAddr, BitVec.extractLsb'_toNat, Nat.shiftRight_eq_div_pow]

theorem wordData_toNat (w : TWord) : (wordData w).toNat = w.toNat % 2 ^ 8 := by
  simp only [wordData, BitVec.extractLsb'_toNat, Nat.shiftRight_eq_div_pow, Nat.pow_zero, Nat.div_one]

theorem wordOp_assemble (op : BitVec 1) (a : Addr) (d : Byte) : wordOp (assemble op a d) = op := by
  apply BitVec.eq_of_toNat_eq
  have := a.isLt
  have := d.isLt
  rw [wordOp_toNat, assemble_toNat]
  omega

theorem wordAddr_assemble (op : BitVec 1) (a : Addr) (d : Byte) : wordAddr (assemble op a d) = a := by
  apply BitVec.eq_of_toNat_eq
  have := a.isLt
  have := d.isLt
  rw [wordAddr_toNat, assemble_toNat]
  omega

theorem wordData_assemble (op : BitVec 1) (a : Addr) (d : Byte) : wordData (assemble op a d) = d := by
  apply BitVec.eq_of_toNat_eq
  have := d.isLt
  rw [wordData_toNat, assemble_toNat]
  omega

namespace Laws.EncodeFields

/-- The three fields of an instruction's word are its operation, its address and its data. -/
def Statement (i : Instr) : Prop :=
  wordOp (encode i) = i.op ∧ wordAddr (encode i) = i.addr ∧ wordData (encode i) = i.data

theorem fields_of_assemble {i : Instr} (h : encode i = assemble i.op i.addr i.data) : Statement i := by
  rw [Statement, h]
  exact ⟨wordOp_assemble _ _ _, wordAddr_assemble _ _ _, wordData_assemble _ _ _⟩

theorem rdRam (a : Addr) : Statement (.rdRam a) := fields_of_assemble rfl
theorem rdPpu (a : Addr) : Statement (.rdPpu a) := fields_of_assemble rfl
theorem rdAio (a : Addr) : Statement (.rdAio a) := fields_of_assemble rfl
theorem rdExp (a : Addr) : Statement (.rdExp a) := fields_of_assemble rfl
theorem rdSram (a : Addr) : Statement (.rdSram a) := fields_of_assemble rfl
theorem rdCart (a : Addr) : Statement (.rdCart a) := fields_of_assemble rfl
theorem wrRam (a : Addr) (d : Byte) : Statement (.wrRam a d) := fields_of_assemble rfl
theorem wrPpu (a : Addr) (d : Byte) : Statement (.wrPpu a d) := fields_of_assemble rfl
theorem wrAio (a : Addr) (d : Byte) : Statement (.wrAio a d) := fields_of_assemble rfl
theorem wrExp (a : Addr) (d : Byte) : Statement (.wrExp a d) := fields_of_assemble rfl
theorem wrSram (a : Addr) (d : Byte) : Statement (.wrSram a d) := fields_of_assemble rfl
theorem wrCart (a : Addr) (d : Byte) : Statement (.wrCart a d) := fields_of_assemble rfl

end Laws.EncodeFields

end Sys2Proof
end

