-- ==== Sys2Proof/Tests/Fixtures.lean ====
section
/-! SUPPORT. The test fixtures of 95_test_vectors.md section 0: mock devices and mappers, and parameters
made of them. They are inventions for testing, not descriptions of any device or cartridge. -/

namespace Sys2Proof.Tests

open Sys2Proof Sys2Proof.Machine

/-- A logged `R(o)` call. -/
def logR (o : Byte) : Nat := 0x10000 + o.toNat

/-- A logged `W(o,v)` call. -/
def logW (o v : Byte) : Nat := 0x20000 + 0x100 * o.toNat + v.toNat

/-- `MockRegs(n)`: `n` registers, then the call log. -/
def mockRegs (n : Nat) : DeviceModel where
  d0 := List.replicate n 0
  readRegister x o := (BitVec.ofNat 8 (x.getD o.toNat 0), x ++ [logR o])
  writeRegister x o v := x.set o.toNat v.toNat ++ [logW o v]
  env x y := x == y

/-- `MockStatus`, without the log: eight registers, then `ptr`. -/
def mockStatus : DeviceModel where
  d0 := [0, 0, 0x80, 0, 0, 0, 0, 0, 0]
  readRegister x o :=
    if o = 2 then (BitVec.ofNat 8 (x.getD 2 0), x.set 2 (x.getD 2 0 % 0x80))
    else if o = 7 then
      (([0x10, 0x20, 0x30, 0x40] : List Byte).getD (x.getD 8 0 % 4) 0, x.set 8 (x.getD 8 0 + 1))
    else (BitVec.ofNat 8 (x.getD o.toNat 0), x)
  writeRegister x o v := x.set o.toNat v.toNat
  env x y := x == y

/-- `FlatROM32K`. -/
def flatROM32K : MapperModel where
  storages := 1
  size _ := 0x8000
  translate _ a := { sid := 0, off := a.toNat - 0x8000, writable := false }
  observeWrite m _ _ := m
  m0 := []
  stor0 _ i := BitVec.ofNat 8 (7 * i + 3)

/-- `BankSel16K`: the state is the bank. -/
def bankSel16K : MapperModel where
  storages := 1
  size _ := 0x10000
  translate m a :=
    if a.toNat < 0xC000 then
      { sid := 0, off := 0x4000 * m.getD 0 0 + (a.toNat - 0x8000), writable := false }
    else { sid := 0, off := a.toNat, writable := false }
  observeWrite _ _ d := [d.toNat % 4]
  m0 := [0]
  stor0 _ i := BitVec.ofNat 8 (0x40 * (i / 0x4000) + i % 0x40)

/-- `RamCart`: storage 0 is `WRAM`, storage 1 is `PRG`. -/
def ramCart : MapperModel where
  storages := 2
  size sid := if sid = 0 then 0x2000 else 0x8000
  translate _ a :=
    if a.toNat < 0xA000 then { sid := 0, off := a.toNat - 0x8000, writable := true }
    else { sid := 1, off := a.toNat - 0x8000, writable := false }
  observeWrite m _ _ := m
  m0 := []
  stor0 sid i := if sid = 0 then 0 else BitVec.ofNat 8 i ^^^ 0xA5

/-- `BadMapper`: breaks its contract from 0xC000 on. -/
def badMapper : MapperModel where
  storages := 1
  size _ := 0x4000
  translate _ a := { sid := 0, off := a.toNat - 0x8000, writable := false }
  observeWrite m _ _ := m
  m0 := []
  stor0 _ _ := 0

/-- Parameters of the fixtures; cartridge 0 is `FlatROM32K`, 1 `BankSel16K`, 2 `RamCart`, 3 `BadMapper`.
The values of the open bytes are arbitrary. -/
def params : Params where
  openBusPolicy := .fixed
  openBusValue := 0x5C
  ppuBound := true
  aioBound := true
  initRam _ := 0x11
  initExp _ := 0x22
  initSram _ := 0x33
  initLatch := 0x44
  ppuDev := mockRegs 8
  aioDev := mockRegs 32
  mapper id := if id = 0 then flatROM32K else if id = 1 then bankSel16K else if id = 2 then ramCart
    else badMapper

/-- The same with the other open-bus policy and no device bound. -/
def looseParams : Params :=
  { params with openBusPolicy := .lastDriven, ppuBound := false, aioBound := false }

/-- The same with `MockStatus` as picture unit. -/
def statusParams : Params := { params with ppuDev := mockStatus }

/-- The launch state of the fixtures with a cartridge, or none. -/
def start (mp : Option CartId) : State := launch params mp

/-- The response of an answer. -/
def response (r : Result) : Option Byte :=
  match r with
  | .next t => t.rdata
  | .fault _ => none
  | .refused _ => none

/-- The state of an answer. -/
def stateOf (r : Result) : Option State :=
  match r with
  | .next t => some t
  | .fault _ => none
  | .refused _ => none

/-- The fault of an answer. -/
def faultOf (r : Result) : Option Fault :=
  match r with
  | .next _ => none
  | .fault f => some f
  | .refused _ => none

/-- The refusal of an answer. -/
def refusalOf (r : Result) : Option Refusal :=
  match r with
  | .next _ => none
  | .fault _ => none
  | .refused x => some x

end Sys2Proof.Tests
end

