-- ==== Sys2Proof/Tests/Slice0.lean ====
section
/-! SUPPORT. Tests: expected values are those of 95_test_vectors.md (the vector is named) or worked out by
hand from the rule named; and a witness for the hypotheses of each statement that has any. -/

namespace Sys2Proof.Tests

open Sys2Proof Sys2Proof.Machine

/-! ### Well-formedness: for each instruction an address just outside its window is refused -/

theorem test_wf_refuses_rdRam : (Instr.rdRam 0x2000).wf = false := by decide
theorem test_wf_refuses_rdPpu : (Instr.rdPpu 0x1FFF).wf = false := by decide
theorem test_wf_refuses_rdAio : (Instr.rdAio 0x4020).wf = false := by decide
theorem test_wf_refuses_rdExp : (Instr.rdExp 0x401F).wf = false := by decide
theorem test_wf_refuses_rdSram : (Instr.rdSram 0x5FFF).wf = false := by decide
theorem test_wf_refuses_rdCart : (Instr.rdCart 0x7FFF).wf = false := by decide
theorem test_wf_refuses_wrRam : (Instr.wrRam 0x2000 0).wf = false := by decide
theorem test_wf_refuses_wrPpu : (Instr.wrPpu 0x4000 0).wf = false := by decide
theorem test_wf_refuses_wrAio : (Instr.wrAio 0x3FFF 0).wf = false := by decide
theorem test_wf_refuses_wrExp : (Instr.wrExp 0x6000 0).wf = false := by decide
theorem test_wf_refuses_wrSram : (Instr.wrSram 0x8000 0).wf = false := by decide
theorem test_wf_refuses_wrCart : (Instr.wrCart 0x7FFF 0).wf = false := by decide

/-! ### Decoding: words of 95 section 3, one for each constructor -/

theorem test_decode_rdRam : decode 0x01FFF00 = .rdRam 0x1FFF := by decide      -- P1 line 4
theorem test_decode_rdPpu : decode 0x03FFA00 = .rdPpu 0x3FFA := by decide      -- P2 line 4
theorem test_decode_rdAio : decode 0x0401600 = .rdAio 0x4016 := by decide      -- P2 line 9
theorem test_decode_rdExp : decode 0x05FFF00 = .rdExp 0x5FFF := by decide      -- P5 line 10
theorem test_decode_rdSram : decode 0x0600000 = .rdSram 0x6000 := by decide    -- P5 line 12
theorem test_decode_rdCart : decode 0x0BFFF00 = .rdCart 0xBFFF := by decide    -- P4 line 8
theorem test_decode_wrRam : decode 0x1180099 = .wrRam 0x1800 0x99 := by decide -- P1 line 5
theorem test_decode_wrPpu : decode 0x1200080 = .wrPpu 0x2000 0x80 := by decide -- P2 line 5
theorem test_decode_wrAio : decode 0x1401601 = .wrAio 0x4016 0x01 := by decide -- P2 line 8
theorem test_decode_wrExp : decode 0x1402044 = .wrExp 0x4020 0x44 := by decide -- P5 line 7
theorem test_decode_wrSram : decode 0x17FFF77 = .wrSram 0x7FFF 0x77 := by decide -- P5 line 13
theorem test_decode_wrCart : decode 0x1800012 = .wrCart 0x8000 0x12 := by decide -- P3 line 2

/-- A read word with data bits set is the same read (95 section 2.2, last row). -/
theorem test_decode_ignores_data : decode 0x00800FF = .rdRam 0x0800 := by decide

theorem test_encode_write : encode (.wrRam 0x07FF 0x7E) = 0x107FF7E := by decide -- 2.2
theorem test_encode_read : encode (.rdPpu 0x200D) = 0x0200D00 := by decide       -- 2.2

/-- A number of more than 25 bits is no word. -/
theorem test_decode_rejects_long : decodeTableWord 32 0x2000000 = none := by decide

/-- Each row of the opcode table decodes to its own instruction. -/
theorem test_table_rows_decode :
    opcodeRows.all (fun row =>
      (decodeTableWord 32 row.pattern.toNat).map mnemonic == some row.mnemonic) = true := by decide

/-- Each row's instruction runs as the first one after reset. -/
theorem test_table_rows_run :
    opcodeRows.all (fun row =>
      (stateOf (step (State.reset.withFetchWord 32 row.pattern.toNat))).isSome) = true := by decide

/-! ### `Decode` at the window edges (40_address_decoder.md R119) -/

theorem test_decodeAddress_ram_end : decodeAddress 0x1FFF = (.systemRAM, 0x1FFF) := by decide
theorem test_decodeAddress_aio_end : decodeAddress 0x401F = (.audioAndIORegisters, 0x001F) := by decide
theorem test_decodeAddress_exp_start : decodeAddress 0x4020 = (.expansionROM, 0x0000) := by decide
theorem test_decodeAddress_exp_end : decodeAddress 0x5FFF = (.expansionROM, 0x1FDF) := by decide
theorem test_decodeAddress_cart_end : decodeAddress 0xFFFF = (.cartridgeSpace, 0x7FFF) := by decide
theorem test_devOperand_ppu : devOperand .ppu 0x2ABC = 4 := by decide -- 2.1
theorem test_devOperand_aio : devOperand .aio 0x401F = 31 := by decide

/-! ### Reads (95 section 2.3) -/

/-- R-1. -/
theorem test_rdRam_mirror :
    response (busRead params 0x1923 { start none with ram := [(0x123, 0x5A)] }) = some 0x5A := by decide

/-- R-2: a byte nothing has written is its launch byte, on the machine's own parameters too. -/
theorem test_rdRam_launch :
    response (exec (.rdRam 0x0000) State.reset) = some (Config.initRam 0) := rfl

/-- R-3, with the call logged. -/
theorem test_rdPpu_mock :
    (stateOf (busRead params 0x2ABC { start none with ppu := [0, 0, 0, 0, 0x21, 0, 0, 0] })).map
      (fun t => (t.rdata, t.dbLatch, t.ppu)) =
      some (some 0x21, 0x21, [0, 0, 0, 0, 0x21, 0, 0, 0, logR 4]) := by decide

/-- R-4: the read clears the flag it returned. -/
theorem test_rdPpu_clears :
    (stateOf (busRead statusParams 0x2002 (launch statusParams none))).map (fun t => (t.rdata, t.ppu)) =
      some (some 0x80, [0, 0, 0, 0, 0, 0, 0, 0, 0]) := by decide

/-- R-6. -/
theorem test_rdAio_last :
    response (busRead params 0x401F { start none with aio := List.replicate 31 0 ++ [0x33] }) =
      some 0x33 := by decide

/-- R-7 and R-8. -/
theorem test_rdExp_first :
    response (busRead params 0x4020 { start none with exp := [(0, 0x44)] }) = some 0x44 := by decide
theorem test_rdExp_last :
    response (busRead params 0x5FFF { start none with exp := [(0x1FDF, 0x55)] }) = some 0x55 := by decide

/-- R-9. -/
theorem test_rdSram_last :
    response (busRead params 0x7FFF { start none with sram := [(0x1FFF, 0x77)] }) = some 0x77 := by decide

/-- R-16: the mapper is not asked. -/
theorem test_rdSram_with_cart :
    response (busRead params 0x6000 { start (some 2) with sram := [(0, 0x66)] }) = some 0x66 := by decide

/-- R-10. -/
theorem test_rdCart_flat :
    response (busRead params 0xFFFC (start (some 0))) = some 0xE7 := by decide

/-- R-14 and R-15: the last offset in range, and the first beyond it. -/
theorem test_rdCart_bad :
    response (busRead params 0xBFFF (start (some 3))) = some 0x00 ∧
      faultOf (busRead params 0xC000 (start (some 3))) = some .mapperContract := by decide

/-- R-11: open bus, and nothing but the response changes. -/
theorem test_openBus_fixed :
    busRead params 0x8000 (start none) = .next { start none with rdata := some 0x5C } := rfl

/-- R-12, under the other policy. -/
theorem test_openBus_lastDriven :
    response (busRead looseParams 0x9000 { start none with dbLatch := 0x77 }) = some 0x77 := by decide

/-! ### Writes (95 section 2.4) -/

/-- W-2. -/
theorem test_wrRam_mirror :
    (stateOf (busWrite params 0x1FFF 0x7E { start none with ram := [(0x7FF, 0x01)] })).map
      (fun t => (t.ram, t.dbLatch, t.rdata)) = some ([(0x7FF, 0x7E)], 0x7E, none) := by decide

/-- Writing the launch byte back leaves no cell: the canonical form. -/
theorem test_wrRam_canonical :
    (stateOf (busWrite params 0x1FFF 0x11 { start none with ram := [(0x7FF, 0x01)] })).map State.ram =
      some [] := by decide

/-- W-3. -/
theorem test_wrPpu_mirror :
    (stateOf (busWrite params 0x3FFD 0xAB (start none))).map State.ppu =
      some [0, 0, 0, 0, 0, 0xAB, 0, 0, logW 5 0xAB] := by decide

/-- W-6: the last address of the window, and ExpansionROM is not touched. -/
theorem test_wrAio_last :
    (stateOf (busWrite params 0x401F 0x88 (start none))).map (fun t => (t.aio.getD 31 0, t.exp)) =
      some (0x88, []) := by decide

/-- W-5. -/
theorem test_wrExp_first :
    (stateOf (busWrite params 0x4020 0x44 (start none))).map State.exp = some [(0, 0x44)] := by decide

/-- W-7, between two cells. -/
theorem test_wrSram_last :
    (stateOf (busWrite params 0x7FFF 0x77 { start none with sram := [(5, 1)] })).map State.sram =
      some [(5, 1), (0x1FFF, 0x77)] := by decide

/-- W-9: stored in cartridge RAM. -/
theorem test_wrCart_ram :
    (stateOf (busWrite params 0x9FFF 0x22 (start (some 2)))).map (fun t => t.cart.stor) =
      some [[(0x1FFF, 0x22)], []] := by decide

/-- W-11: a write to ROM that selects a bank; no storage byte changes. -/
theorem test_wrCart_bank :
    (stateOf (busWrite params 0x8000 0x02 (start (some 1)))).map (fun t => (t.cart.m, t.cart.stor)) =
      some ([2], [[]]) := by decide

/-- P4 line 5: the read after it sees the new bank. -/
theorem test_rdCart_bank :
    response (busRead params 0x8005 { start (some 1) with cart := { id := 1, m := [2], stor := [[]] } }) =
      some 0x85 := by decide

/-- W-12: discarded. -/
theorem test_wrCart_unbound :
    busWrite params 0x8000 0x12 (start none) = .next { start none with dbLatch := 0x12 } := rfl

/-- W-13. -/
theorem test_wrCart_bad : faultOf (busWrite params 0xC000 0x01 (start (some 3))) = some .mapperContract := by
  decide

/-! ### Host operations (95 section 2.6) -/

/-- H-3 and H-4: a new cartridge brings its own storages; SaveRAM keeps its bytes. -/
theorem test_load :
    (stateOf (busStep params
      { start (some 2) with
        inbox := [.loadCartridge 2], sram := [(0, 0xAA)],
        cart := { id := 2, m := [], stor := [[(0, 0xBB)], []] } })).map
      (fun t => (cartByte params t.cart 0 0, t.sram, t.mapperBound)) =
      some (0x00, [(0, 0xAA)], true) := by decide

/-- H-6. -/
theorem test_after_teardown :
    refusalOf (busStep params { start none with phase := .tornDown, inbox := [.transaction 0] }) =
      some .afterTeardown := by decide

/-- An environment step the devices do not allow (`Env` of the fixtures is the identity). -/
theorem test_env_not_allowed :
    refusalOf (busStep params { start none with inbox := [.envStep [1] []] }) = some .envNotAllowed := by
  decide

theorem test_construct :
    (stateOf (busStep params { start none with phase := .beforeConstruct, inbox := [.construct (some 0)] })).map
      (fun t => (t.mapperBound, t.cart.id, t.phase)) = some (true, 0, .live) := by decide

/-- An instruction outside its window stops by name. -/
theorem test_out_of_window :
    faultOf (exec (.rdRam 0x2000) State.reset) = some .storeIndexAssert ∧
      faultOf (exec (.rdExp 0x401F) State.reset) = some .storeIndexAssert ∧
      faultOf (exec (.wrPpu 0x4000 0) State.reset) = some .decoderInconsistency ∧
      faultOf (exec (.wrCart 0x7FFF 0) State.reset) = some .decoderInconsistency := by decide

/-! ### Witnesses: states and operands that meet the hypotheses of the statements, at boundary values -/

theorem witness_DecodeOfEncode :
    (Instr.rdAio 0x401F).wf = true ∧ (Instr.wrExp 0x4020 0xFF).wf = true ∧
      (Instr.wrCart 0xFFFF 0).wf = true := by decide

theorem witness_ReadIgnoresData :
    wordOp 0x00800FF = 0 ∧ wordOp 0x0080000 = 0 ∧ wordAddr 0x00800FF = wordAddr 0x0080000 := by decide

theorem witness_DecodeByRanges :
    (0x1FFF : Addr).toNat ≤ 0x1FFF ∧
      (0x2000 ≤ (0x2000 : Addr).toNat ∧ (0x3FFF : Addr).toNat ≤ 0x3FFF) ∧
      (0x4000 ≤ (0x4000 : Addr).toNat ∧ (0x401F : Addr).toNat ≤ 0x401F) ∧
      (0x4020 ≤ (0x4020 : Addr).toNat ∧ (0x5FFF : Addr).toNat ≤ 0x5FFF) ∧
      (0x6000 ≤ (0x6000 : Addr).toNat ∧ (0x7FFF : Addr).toNat ≤ 0x7FFF) ∧
      0x8000 ≤ (0x8000 : Addr).toNat := by decide

theorem witness_OperandsAreAddressBits :
    inWindow .systemRAM 0x1FFF = true ∧ inWindow .pictureUnitRegisters 0x3FFF = true ∧
      inWindow .audioAndIORegisters 0x401F = true ∧ inWindow .expansionROM 0x4020 = true ∧
      inWindow .saveRAM 0x7FFF = true ∧ inWindow .cartridgeSpace 0xFFFF = true := by decide

theorem witness_DevicesSeeTheirOffsetsOnly :
    inWindow .pictureUnitRegisters 0x3FFF = true ∧ inWindow .audioAndIORegisters 0x401F = true := by decide

theorem witness_MirrorAliasLaw :
    inWindow .systemRAM 0x07FF = true ∧ inWindow .systemRAM 0x1FFF = true ∧
      inWindow .saveRAM 0x6000 = true ∧ inWindow .saveRAM 0x7FFF = true := by decide

theorem witness_MirroredAccessesAgree :
    inWindow .pictureUnitRegisters 0x2005 = true ∧ inWindow .pictureUnitRegisters 0x3FFD = true ∧
      (regionPeriod .pictureUnitRegisters).toNat ≠ 0 ∧
      ((0x2005 : Addr).toNat - (regionBase .pictureUnitRegisters).toNat) %
          (regionPeriod .pictureUnitRegisters).toNat =
        ((0x3FFD : Addr).toNat - (regionBase .pictureUnitRegisters).toNat) %
          (regionPeriod .pictureUnitRegisters).toNat := by decide

theorem witness_ReadRamReturnsStoreByte :
    (0x01FFF00 : TWord) &&& 0x1E00000 = 0x0000000 ∧ (0x1FFF : Addr).toNat ≤ 0x1FFF := by decide

theorem witness_ReadPpuCallsDevice :
    (0x03FFF00 : TWord) &&& 0x1E00000 = 0x0200000 ∧ 0x2000 ≤ (0x3FFF : Addr).toNat ∧
      (0x3FFF : Addr).toNat ≤ 0x3FFF ∧ params.ppuBound = true ∧ looseParams.ppuBound = false := by decide

theorem witness_ReadAioCallsDevice :
    (0x0401F00 : TWord) &&& 0x1FFE000 = 0x0400000 ∧ 0x4000 ≤ (0x401F : Addr).toNat ∧
      (0x401F : Addr).toNat ≤ 0x401F ∧ params.aioBound = true ∧ looseParams.aioBound = false := by decide

theorem witness_ReadExpReturnsStoreByte :
    wordOp 0x0402000 = 0 ∧ (wordAddr 0x0402000).extractLsb' 13 3 = 0b010 ∧
      (wordAddr 0x0402000).extractLsb' 5 8 ≠ 0 ∧ 0x4020 ≤ (0x4020 : Addr).toNat ∧
      (0x5FFF : Addr).toNat ≤ 0x5FFF := by decide

theorem witness_ReadSramReturnsStoreByte :
    (0x07FFF00 : TWord) &&& 0x1E00000 = 0x0600000 ∧ 0x6000 ≤ (0x7FFF : Addr).toNat ∧
      (0x7FFF : Addr).toNat ≤ 0x7FFF := by decide

/-- The three clauses: no mapper, a mapper that names a byte, a mapper that names none. -/
theorem witness_ReadCartResolvesThroughMapper :
    (0x0FFFF00 : TWord) &&& 0x1800000 = 0x0800000 ∧ 0x8000 ≤ (0x8000 : Addr).toNat ∧
      State.reset.mapperBound = false ∧ (start (some 0)).mapperBound = true ∧
      resolve params (start (some 0)).cart 0xFFFF = some ⟨0, 0x7FFF, false⟩ ∧
      resolve params (start (some 3)).cart 0xC000 = none := by decide

theorem witness_WriteRamSetsStoreByte :
    (0x11FFF7E : TWord) &&& 0x1E00000 = 0x1000000 ∧ (0x1FFF : Addr).toNat ≤ 0x1FFF := by decide

theorem witness_WritePpuCallsDevice :
    (0x13FFFAB : TWord) &&& 0x1E00000 = 0x1200000 ∧ 0x2000 ≤ (0x2000 : Addr).toNat ∧
      (0x2000 : Addr).toNat ≤ 0x3FFF := by decide

theorem witness_WriteAioCallsDevice :
    (0x1401F33 : TWord) &&& 0x1FFE000 = 0x1400000 ∧ 0x4000 ≤ (0x4000 : Addr).toNat ∧
      (0x4000 : Addr).toNat ≤ 0x401F := by decide

theorem witness_WriteExpSetsStoreByte :
    wordOp 0x15FFF55 = 1 ∧ (wordAddr 0x15FFF55).extractLsb' 13 3 = 0b010 ∧
      (wordAddr 0x15FFF55).extractLsb' 5 8 ≠ 0 ∧ 0x4020 ≤ (0x4020 : Addr).toNat ∧
      (0x4020 : Addr).toNat ≤ 0x5FFF := by decide

theorem witness_WriteSramSetsStoreByte :
    (0x1600066 : TWord) &&& 0x1E00000 = 0x1600000 ∧ 0x6000 ≤ (0x6000 : Addr).toNat ∧
      (0x6000 : Addr).toNat ≤ 0x7FFF := by decide

/-- The clauses: no mapper, not writable, writable, no byte named. -/
theorem witness_WriteCartForwardsThenStores :
    (0x1FFFF05 : TWord) &&& 0x1800000 = 0x1800000 ∧ 0x8000 ≤ (0xFFFF : Addr).toNat ∧
      State.reset.mapperBound = false ∧ (start (some 1)).mapperBound = true ∧
      resolve params (forward params (start (some 1)).cart 0xBFFF 0x02) 0xBFFF = some ⟨0, 0xBFFF, false⟩ ∧
      resolve params (forward params (start (some 2)).cart 0x9FFF 0x22) 0x9FFF = some ⟨0, 0x1FFF, true⟩ ∧
      resolve params (forward params (start (some 3)).cart 0xC000 0x01) 0xC000 = none := by decide

theorem witness_ReadChangesAtMostLatchAndDevice :
    (∃ t, busRead params 0x3FFF (start none) = .next t) ∧
      (∃ t, busRead params 0x8000 (start none) = .next t) ∧ unmapped params (start none) 0x8000 = true ∧
      unmapped looseParams (start none) 0x401F = true ∧ (decodeAddress 0x4020).1 ≠ .pictureUnitRegisters ∧
      (decodeAddress 0x4020).1 ≠ .audioAndIORegisters :=
  ⟨⟨_, rfl⟩, ⟨_, rfl⟩, by decide, by decide, by decide, by decide⟩

theorem witness_WriteChangesOnlyItsTarget :
    (∃ t, busWrite params 0x9FFF 0x22 (start (some 2)) = .next t) ∧
      (∃ t, busWrite params 0x401F 0x33 (start none) = .next t) ∧
      unmapped params (start none) 0xFFFF = true ∧ (decodeAddress 0x7FFF).1 ≠ .cartridgeSpace :=
  ⟨⟨_, rfl⟩, ⟨_, rfl⟩, by decide, by decide⟩

theorem witness_PlainReadsAreIdempotent :
    (decodeAddress 0xFFFF).1 ≠ .pictureUnitRegisters ∧ (decodeAddress 0xFFFF).1 ≠ .audioAndIORegisters ∧
      ∃ t, busRead params 0xFFFF (start (some 0)) = .next t :=
  ⟨by decide, by decide, _, rfl⟩

theorem witness_UnmappedReadIsOpenBus :
    unmapped params (start none) 0x8000 = true ∧ params.openBusPolicy = .fixed ∧
      unmapped looseParams (start none) 0x2000 = true ∧ looseParams.openBusPolicy = .lastDriven := by decide

theorem witness_UnmappedWriteIsDiscarded :
    unmapped params (start none) 0xFFFF = true ∧ unmapped looseParams (start none) 0x401F = true := by decide

theorem witness_OutOfWindowInstructionsStop :
    (Instr.rdExp 0x401F).wf = false ∧ (Instr.rdCart 0x7FFF).wf = false := by decide

theorem witness_TransactionsComplete :
    (Instr.wrSram 0x7FFF 0).wf = true ∧ (Instr.wrSram 0x7FFF 0).region ≠ .cartridgeSpace ∧
      (Instr.rdCart 0x8000).wf = true ∧ State.reset.mapperBound = false := by decide

theorem witness_StoreReadWriteLaws :
    (0x1FFF : Addr).toNat < regionSize (storeRegion .ram) ∧
      storeIndex .ram 0x07FF = storeIndex .ram 0x1FFF ∧
      storeIndex .ram 0x07FF ≠ storeIndex .ram 0x0800 ∧
      (0x1FDF : Addr).toNat < regionSize (storeRegion .exp) := by decide

theorem witness_CanonicalMemoriesAreEqualData :
    Memory.wf params.initRam 0x0800 [(0, 0x12), (0x7FF, 0x7E)] ∧
      ∀ k, Memory.read params.initRam [(0, 0x12), (0x7FF, 0x7E)] k =
        Memory.read params.initRam [(0, 0x12), (0x7FF, 0x7E)] k :=
  ⟨by decide, fun _ => rfl⟩

/-- A state whose one event is a write to index 0 of SystemRAM, and so not to index 0x7FF. -/
def oneWrite : State := { start none with inbox := [.transaction 0x1000042] }

theorem oneWrite_spares : ∀ e ∈ oneWrite.inbox, ¬ writesStoreByte .ram 0x7FF e := by
  intro e he ⟨w, hw, _, _, hi⟩
  simp only [oneWrite, List.mem_singleton] at he
  subst he
  cases hw
  revert hi
  decide

theorem witness_RunKeepsUnwrittenStoreByte :
    oneWrite.phase ≠ .beforeConstruct ∧ (∀ e ∈ oneWrite.inbox, ¬ writesStoreByte .ram 0x7FF e) ∧
      ∃ t, runSteps params 1 oneWrite = .next t :=
  ⟨by decide, oneWrite_spares, _, rfl⟩

theorem witness_ReadAfterWriteAcrossRun :
    inWindow (storeRegion .ram) 0x07FF = true ∧ inWindow (storeRegion .ram) 0x1FFF = true ∧
      storeIndex .ram (windowOffset (storeRegion .ram) 0x07FF) =
        storeIndex .ram (windowOffset (storeRegion .ram) 0x1FFF) ∧
      oneWrite.phase ≠ .beforeConstruct ∧
      (∀ e ∈ oneWrite.inbox, ¬ writesStoreByte .ram
        (storeIndex .ram (windowOffset (storeRegion .ram) 0x07FF)) e) ∧
      ∃ t t', busWrite params 0x07FF 0x7E oneWrite = .next t ∧ runSteps params 1 t = .next t' :=
  ⟨by decide, by decide, by decide, by decide, oneWrite_spares, _, _, rfl, rfl⟩

/-- Not writable (`FlatROM32K`), and writable (`RamCart`). -/
theorem witness_CartWriteThenReadBack :
    inWindow .cartridgeSpace 0x9FFF = true ∧ (start (some 0)).mapperBound = true ∧
      resolve params (start (some 0)).cart 0x9FFF = some ⟨0, 0x1FFF, false⟩ ∧
      resolve params (forward params (start (some 0)).cart 0x9FFF 0x22) 0x9FFF = some ⟨0, 0x1FFF, false⟩ ∧
      (start (some 2)).mapperBound = true ∧
      resolve params (start (some 2)).cart 0x9FFF = some ⟨0, 0x1FFF, true⟩ ∧
      resolve params (forward params (start (some 2)).cart 0x9FFF 0x22) 0x9FFF =
        some ⟨0, 0x1FFF, true⟩ := by decide

theorem witness_ConstructGivesLaunchState :
    ∃ s : State, s.phase = .beforeConstruct ∧ s.inbox = .construct (some 2) :: [.teardown] :=
  ⟨{ start none with phase := .beforeConstruct, inbox := .construct (some 2) :: [.teardown] }, rfl, rfl⟩

theorem witness_ConstructIsFirstAndOnce :
    (∃ s : State, s.inbox = .transaction 0 :: [] ∧ s.phase = .beforeConstruct ∧
      ∀ mp, Event.transaction 0 ≠ .construct mp) ∧
      ∃ s : State, s.inbox = .construct none :: [] ∧ s.phase = .live ∧
        ∃ mp, Event.construct none = .construct mp :=
  ⟨⟨{ start none with phase := .beforeConstruct, inbox := [.transaction 0] }, rfl, rfl, by simp⟩,
    { start none with inbox := [.construct none] }, rfl, rfl, _, rfl⟩

theorem witness_LoadReplacesCartridgeOnly :
    ∃ s : State, s.phase = .live ∧ s.mapperBound = true ∧ s.inbox = .loadCartridge 2 :: [] :=
  ⟨{ start (some 0) with inbox := [.loadCartridge 2] }, rfl, rfl, rfl⟩

/-- A choice the devices allow; `test_env_not_allowed` has one they do not. -/
theorem witness_EnvStepChangesDevicesOnly :
    ∃ s : State, s.phase = .live ∧ s.inbox = .envStep s.ppu s.aio :: [] ∧
      params.ppuDev.env s.ppu s.ppu = true ∧ params.aioDev.env s.aio s.aio = true :=
  ⟨{ start none with inbox := [.envStep (start none).ppu (start none).aio] }, rfl, rfl, by decide, by decide⟩

theorem witness_TeardownIsTerminal :
    (∃ s : State, s.phase = .live ∧ s.inbox = .teardown :: [.transaction 0]) ∧
      ∃ s : State, s.phase = .tornDown :=
  ⟨⟨{ start none with inbox := .teardown :: [.transaction 0] }, rfl, rfl⟩,
    { start none with phase := .tornDown }, rfl⟩

theorem witness_NothingIssuedNothingDone : State.reset.inbox = [] ∧ State.reset.phase ≠ .tornDown :=
  ⟨rfl, by decide⟩

theorem witness_MapperStaysBound :
    ∃ s t : State, s.phase = .live ∧ s.mapperBound = true ∧ step s = .next t :=
  ⟨(launch Config.params (some 0)).withFetchWord 25 0x11FFF7E, _, rfl, rfl, rfl⟩

theorem witness_StepRunsDecodedInstruction :
    (State.reset.withFetchWord 25 0x1FFFF05).phase = .live ∧
      (State.reset.withFetchWord 25 0x1FFFF05).inbox = .transaction 0x1FFFF05 :: [] := ⟨rfl, rfl⟩

theorem witness_TransactionsRunInIssueOrder : (start none).phase = .live := rfl

theorem witness_OnlyMapperContractFaults :
    busStep params { start (some 3) with inbox := [.transaction 0x0C00000] } = .fault .mapperContract := rfl

/-- A state with memory written to, in canonical form, and a step from it. -/
theorem witness_StepKeepsMemoryCanonical :
    ∃ s t : State, memoryWf Config.params s ∧ s.inbox ≠ [] ∧ step s = .next t :=
  ⟨(launch Config.params (some 0)).withFetchWord 25 0x11FFF7E, _,
    ⟨fun σ => by cases σ <;> exact Memory.wf_nil _ _, fun _ => cartWf_freshCart _ _⟩, by decide, rfl⟩

/-- Parameters in which every mapper is `FlatROM32K`. -/
def flatParams : Params := { params with mapper := fun _ => flatROM32K }

theorem flatROM32K_keepsContract : keepsContract flatROM32K := by
  intro m _ a ha
  rw [inWindow_iff] at ha
  simp only [regionBase, regionSize, BitVec.reduceToNat] at ha
  simp only [flatROM32K]
  omega

theorem witness_NoFaultUnderMapperContract :
    (∀ id, keepsContract (flatParams.mapper id)) ∧
      ∃ s : State, runInv flatParams s ∧ s.mapperBound = true ∧ s.inbox = [.transaction 0x18000FF] :=
  ⟨fun _ => flatROM32K_keepsContract,
    { launch flatParams (some 0) with inbox := [.transaction 0x18000FF] },
    ⟨⟨fun σ => by cases σ <;> exact Memory.wf_nil _ _, fun _ => cartWf_freshCart _ _⟩, fun _ => .bound⟩,
    rfl, rfl⟩

theorem witness_UnboundCartridgeIsUnread : (start none).mapperBound = false := rfl

theorem witness_LatchIsUnreadUnderFixed : params.openBusPolicy = .fixed := rfl

theorem witness_DevicesAreIsolated :
    (decodeAddress (wordAddr 0x0401F00)).1 ≠ .pictureUnitRegisters ∧
      (decodeAddress (wordAddr 0x03FFF00)).1 ≠ .audioAndIORegisters := by decide

end Sys2Proof.Tests
end

