-- ==== Sys2Proof/Proofs/Scope.lean ====
section
/-! SUPPORT. Taking the head event of a live block, and what the machine's step makes of a transaction taken
(00_scope.md R7). -/

namespace Sys2Proof.Machine

/-- A live block takes the oldest of the events issued (20_memory.md R66). -/
theorem fetch_of_live_cons {P : Params} {s : State} {e : Event} {rest : List Event}
    (hp : s.phase = .live) (hi : s.inbox = e :: rest) :
    fetch P s = takeLive P e { s with inbox := rest } := by
  simp only [fetch, hp, hi]

@[simp] theorem takeLive_transaction (P : Params) (w : TWord) (s : State) :
    takeLive P (.transaction w) s = .transaction w s := rfl

/-- A transaction taken is decoded and run in the state that has taken it. -/
theorem step_of_fetch_transaction {s t : State} {w : TWord}
    (h : fetch Config.params s = .transaction w t) : step s = exec (decode w) t := by
  simp only [step, h]

/-- Settles O46: a live block with a transaction at the head of its inbox takes just that event, and the
step of a transaction taken is `exec` of its decoded word. -/
theorem stepRunsDecodedInstruction : Obligations.StepRunsDecodedInstruction := by
  intro s w rest hp hi
  have hfetch : fetch Config.params s = .transaction w { s with inbox := rest } := by
    rw [fetch_of_live_cons hp hi, takeLive_transaction]
  exact step_of_fetch_transaction hfetch

end Sys2Proof.Machine
end

/-! SUPPORT. Proofs about the state (10_state.md). First the rules the proofs share: a transaction word runs one
operation on what stands behind its address, and what each operation answers in its window. Then canonical memory
as an invariant of every step, the canonical form as the data of an array, and what a transaction does not read. -/

namespace Sys2Proof.Machine

/-! ### A transaction is one operation -/

/-- Decoding and dispatching a word is the Bus's own routing (30_encoding.md R86). -/
theorem exec_decode (w : TWord) (s : State) : exec (decode w) s = busTransaction Config.params w s := by
  unfold decode busTransaction busRead busWrite
  split <;> cases (decodeAddress (wordAddr w)).1 <;> rfl

theorem step_eq_busStep (s : State) : step s = busStep Config.params s := by
  cases hf : fetch Config.params s with
  | transaction w t =>
    simp only [step, busStep, hf]
    exact exec_decode w t
  | done r => simp only [step, busStep, hf]

/-- An operation on the store, device port or cartridge whose window holds the address. -/
inductive BusOp (P : Params) (a : Addr) : (State → Result) → Prop
  | readStore (σ : StoreId) (hw : inWindow (storeRegion σ) a = true) : BusOp P a (readStore P σ a)
  | readDevice (δ : DevId) (hw : inWindow (devRegion δ) a = true) : BusOp P a (readDevice P δ a)
  | readCart (hw : inWindow .cartridgeSpace a = true) : BusOp P a (readCart P a)
  | writeStore (σ : StoreId) (d : Byte) (hw : inWindow (storeRegion σ) a = true) :
      BusOp P a (writeStore P σ a d)
  | writeDevice (δ : DevId) (d : Byte) (hw : inWindow (devRegion δ) a = true) :
      BusOp P a (writeDevice P δ a d)
  | writeCart (d : Byte) (hw : inWindow .cartridgeSpace a = true) : BusOp P a (writeCart P a d)

theorem busOp_busRead (P : Params) (a : Addr) : BusOp P a (busRead P a) := by
  have hw := (decodeAddress_region a _).1 rfl
  unfold busRead
  cases hr : (decodeAddress a).1 <;> rw [hr] at hw
  case systemRAM => exact .readStore .ram hw
  case pictureUnitRegisters => exact .readDevice .ppu hw
  case audioAndIORegisters => exact .readDevice .aio hw
  case expansionROM => exact .readStore .exp hw
  case saveRAM => exact .readStore .sram hw
  case cartridgeSpace => exact .readCart hw

theorem busOp_busWrite (P : Params) (a : Addr) (d : Byte) : BusOp P a (busWrite P a d) := by
  have hw := (decodeAddress_region a _).1 rfl
  unfold busWrite
  cases hr : (decodeAddress a).1 <;> rw [hr] at hw
  case systemRAM => exact .writeStore .ram d hw
  case pictureUnitRegisters => exact .writeDevice .ppu d hw
  case audioAndIORegisters => exact .writeDevice .aio d hw
  case expansionROM => exact .writeStore .exp d hw
  case saveRAM => exact .writeStore .sram d hw
  case cartridgeSpace => exact .writeCart d hw

/-- A transaction is one operation, on what its address names (41_bus_read.md R130, 42_bus_write.md R150). -/
theorem busOp_busTransaction (P : Params) (w : TWord) : BusOp P (wordAddr w) (busTransaction P w) := by
  unfold busTransaction
  split
  · exact busOp_busRead P _
  · exact busOp_busWrite P _ _

/-! ### What an operation answers in its window -/

theorem readDevice_of_inWindow (P : Params) {δ : DevId} {a : Addr} (hw : inWindow (devRegion δ) a = true)
    (s : State) :
    readDevice P δ a s =
      if devBound P δ then
        .next (answer (callRead P s δ (devOperand δ a)).1 (withDevice s δ (callRead P s δ (devOperand δ a)).2))
      else .next (answerOpenBus P s) := by
  rw [readDevice, if_pos hw]

theorem writeDevice_of_inWindow (P : Params) {δ : DevId} {a : Addr} (hw : inWindow (devRegion δ) a = true)
    (d : Byte) (s : State) :
    writeDevice P δ a d s =
      if devBound P δ then .next (drive d (withDevice s δ (callWrite P s δ (devOperand δ a) d)))
      else .next (drive d s) := by
  rw [writeDevice, if_pos hw]

theorem readCart_of_unbound (P : Params) {a : Addr} {s : State} (hw : inWindow .cartridgeSpace a = true)
    (hb : s.mapperBound = false) : readCart P a s = .next (answerOpenBus P s) := by
  simp [readCart, hw, hb]

theorem writeCart_of_unbound (P : Params) {a : Addr} {s : State} (hw : inWindow .cartridgeSpace a = true)
    (hb : s.mapperBound = false) (d : Byte) : writeCart P a d s = .next (drive d s) := by
  simp [writeCart, hw, hb]

theorem readCart_of_bound (P : Params) {a : Addr} {s : State} (hw : inWindow .cartridgeSpace a = true)
    (hb : s.mapperBound = true) :
    readCart P a s = (resolve P s.cart a).elim (.fault .mapperContract)
      fun t => .next (answer (cartByte P s.cart t.sid t.off) s) := by
  cases hr : resolve P s.cart a <;> simp [readCart, hw, hb, hr]

theorem writeCart_of_bound (P : Params) {a : Addr} {s : State} (hw : inWindow .cartridgeSpace a = true)
    (hb : s.mapperBound = true) (d : Byte) :
    writeCart P a d s = (resolve P (forward P s.cart a d) a).elim (.fault .mapperContract)
      fun t => .next (drive d { s with cart := gatedStore P (forward P s.cart a d) t d }) := by
  cases hr : resolve P (forward P s.cart a d) a <;> simp [writeCart, hw, hb, hr]

/-! ### Canonical memory: what each update of the state keeps -/

section MemoryWf

variable {P : Params} {s t : State}

@[simp] theorem memoryWf_answer (v : Byte) : memoryWf P (answer v s) ↔ memoryWf P s := by
  simp [memoryWf]

@[simp] theorem memoryWf_answerOpenBus : memoryWf P (answerOpenBus P s) ↔ memoryWf P s := by
  simp [memoryWf]

@[simp] theorem memoryWf_drive (d : Byte) : memoryWf P (drive d s) ↔ memoryWf P s := by
  simp [memoryWf]

@[simp] theorem memoryWf_withDevice (δ : DevId) (x : DState) :
    memoryWf P (withDevice s δ x) ↔ memoryWf P s := by
  simp [memoryWf]

@[simp] theorem memoryWf_withInbox (es : List Event) :
    memoryWf P { s with inbox := es } ↔ memoryWf P s := Iff.rfl

@[simp] theorem memoryWf_envStep (x y : DState) : memoryWf P (envStep x y s) ↔ memoryWf P s := Iff.rfl

@[simp] theorem memoryWf_teardown : memoryWf P (teardown s) ↔ memoryWf P s := Iff.rfl

/-- Setting a byte the store has keeps memory canonical. -/
theorem memoryWf_setStoreByte (h : memoryWf P s) (σ : StoreId) {i : Nat} (hi : i < storeCap σ) (v : Byte) :
    memoryWf P (setStoreByte P s σ i v) := by
  obtain ⟨hstores, hcart⟩ := h
  refine ⟨fun ρ => ?_, by simpa [setStoreByte] using hcart⟩
  rw [setStoreByte, storeCells_withStore]
  split
  · next heq =>
    subst heq
    exact Memory.wf_write (hstores ρ) hi v
  · exact hstores ρ

/-- Replacing the cartridge by one shaped as its mapper says keeps memory canonical. -/
theorem memoryWf_withCart (h : memoryWf P s) {c : Cart} (hc : cartWf P c) :
    memoryWf P { s with cart := c } :=
  ⟨h.1, fun _ => hc⟩

theorem memoryWf_loadCartridge (h : memoryWf P s) (mp : CartId) : memoryWf P (loadCartridge P mp s) :=
  ⟨h.1, fun _ => cartWf_freshCart P mp⟩

/-- The launch state's stores list no cell, and a mapper bound at launch has a fresh cartridge
(10_state.md R41). -/
theorem memoryWf_launch (P : Params) (mp : Option CartId) : memoryWf P (launch P mp) := by
  refine ⟨fun σ => ?_, fun hb => ?_⟩
  · rw [storeCells_launch]
    exact Memory.wf_nil _ _
  · cases mp with
    | none => cases hb
    | some id => exact cartWf_freshCart P id

/-- The gated store of a byte the cartridge has keeps the cartridge's shape. -/
theorem cartWf_gatedStore {c : Cart} (h : cartWf P c) {x : Translation}
    (hx : x.off < (P.mapper c.id).size x.sid) (d : Byte) : cartWf P (gatedStore P c x d) := by
  unfold gatedStore
  split
  · exact cartWf_setCartByte h x.sid hx d
  · exact h

/-! ### Canonical memory: every step keeps it -/

theorem memoryWf_writeStore {σ : StoreId} {a : Addr} {d : Byte} (h : memoryWf P s)
    (hw : inWindow (storeRegion σ) a = true) (ht : writeStore P σ a d s = .next t) : memoryWf P t := by
  rw [writeStore_next P hw] at ht
  cases ht
  rw [memoryWf_drive]
  exact memoryWf_setStoreByte h σ (storeIndex_lt (windowOffset_lt hw)) d

theorem memoryWf_readDevice {δ : DevId} {a : Addr} (h : memoryWf P s)
    (ht : readDevice P δ a s = .next t) : memoryWf P t := by
  obtain ⟨-, -, hr⟩ | ⟨-, -, hr⟩ | ⟨-, hr⟩ := readDevice_cases ht <;> cases hr
  · simpa using h
  · simpa using h

theorem memoryWf_writeDevice {δ : DevId} {a : Addr} {d : Byte} (h : memoryWf P s)
    (ht : writeDevice P δ a d s = .next t) : memoryWf P t := by
  obtain ⟨-, -, hr⟩ | ⟨-, -, hr⟩ | ⟨-, hr⟩ := writeDevice_cases ht <;> cases hr
  · simpa using h
  · simpa using h

theorem memoryWf_readCart {a : Addr} (h : memoryWf P s) (ht : readCart P a s = .next t) :
    memoryWf P t := by
  obtain ⟨x, -, -, -, hr⟩ | ⟨-, -, -, hr⟩ | ⟨-, -, hr⟩ | ⟨-, hr⟩ := readCart_cases ht <;> cases hr
  · simpa using h
  · simpa using h

/-- The byte a CartridgeSpace write stores is one `resolve` found inside its storage. -/
theorem memoryWf_writeCart {a : Addr} {d : Byte} (h : memoryWf P s) (ht : writeCart P a d s = .next t) :
    memoryWf P t := by
  obtain ⟨x, -, hb, hx, hr⟩ | ⟨-, -, -, hr⟩ | ⟨-, -, hr⟩ | ⟨-, hr⟩ := writeCart_cases ht <;> cases hr
  · obtain ⟨-, -, hoff⟩ := resolve_eq_some.1 hx
    rw [memoryWf_drive]
    exact memoryWf_withCart h (cartWf_gatedStore (cartWf_forward (h.2 hb) a d) hoff d)
  · simpa using h

theorem memoryWf_of_busOp {a : Addr} {f : State → Result} (hf : BusOp P a f) (h : memoryWf P s)
    (ht : f s = .next t) : memoryWf P t := by
  cases hf with
  | readStore σ hw =>
    rw [readStore_next P hw] at ht
    cases ht
    simpa using h
  | readDevice δ hw => exact memoryWf_readDevice h ht
  | readCart hw => exact memoryWf_readCart h ht
  | writeStore σ d hw => exact memoryWf_writeStore h hw ht
  | writeDevice δ d hw => exact memoryWf_writeDevice h ht
  | writeCart d hw => exact memoryWf_writeCart h ht

theorem memoryWf_of_fetch_transaction {w : TWord} (h : memoryWf P s)
    (hf : fetch P s = .transaction w t) : memoryWf P t := by
  obtain ⟨-, rest, -, rfl⟩ := fetch_transaction hf
  rwa [memoryWf_withInbox]

/-- Waiting, `CONSTRUCT`, `LOAD_CARTRIDGE`, `ENV_STEP` and `TEARDOWN` keep memory canonical. -/
theorem memoryWf_of_fetch_next (h : memoryWf P s) (hf : fetch P s = .done (.next t)) : memoryWf P t := by
  obtain ⟨-, -, rfl⟩ | ⟨mp, rest, -, -, rfl⟩ | ⟨mp, rest, -, -, rfl⟩ | ⟨x, y, rest, -, -, -, rfl⟩ |
    ⟨rest, -, -, rfl⟩ := fetch_next hf
  · exact h
  · rw [memoryWf_withInbox]
    exact memoryWf_launch P mp
  · exact memoryWf_loadCartridge ((memoryWf_withInbox rest).2 h) mp
  · simpa using h
  · simpa using h

/-- Every step of the block keeps all memory canonical, for any parameters. -/
theorem memoryWf_busStep (h : memoryWf P s) (ht : busStep P s = .next t) : memoryWf P t := by
  unfold busStep at ht
  split at ht
  · next w u hf =>
    exact memoryWf_of_busOp (busOp_busTransaction P w) (memoryWf_of_fetch_transaction h hf) ht
  · next r hf =>
    subst ht
    exact memoryWf_of_fetch_next h hf

end MemoryWf

/-- Settles O51: the machine's step is the block's, which keeps memory canonical for any parameters. -/
theorem stepKeepsMemoryCanonical : Obligations.StepKeepsMemoryCanonical := by
  intro s t h ht
  rw [step_eq_busStep] at ht
  exact memoryWf_busStep h ht

/-! ### The launch state -/

@[simp] theorem storeByte_launch (P : Params) (mp : Option CartId) (σ : StoreId) (i : Nat) :
    storeByte P (launch P mp) σ i = storeLaunch P σ i := by
  simp [storeByte]

/-- Settles O39: reset is a launch, whose store bytes are the launch bytes. -/
theorem resetIsLaunchState : Obligations.ResetIsLaunchState :=
  ⟨fun i => storeByte_launch _ none .ram i, fun i => storeByte_launch _ none .exp i,
    fun i => storeByte_launch _ none .sram i, rfl, rfl, rfl, rfl, rfl⟩

/-- Settles O50: reset is a launch. -/
theorem resetMemoryIsCanonical : Obligations.ResetMemoryIsCanonical :=
  memoryWf_launch Config.params none

/-- Settles O52: a mapper bound at launch is in its first state, which it reaches with no write observed. -/
theorem launchMeetsRunInvariant : Obligations.LaunchMeetsRunInvariant := by
  intro P mp
  refine ⟨memoryWf_launch P mp, fun hb => ?_⟩
  cases mp with
  | none => cases hb
  | some id => exact .bound

/-! ### A canonical array lists just the bytes that differ from launch -/

/-- An index that does not read as its launch byte has a cell. -/
theorem Memory.mem_of_read_ne {launch : Nat → Byte} {m : Memory} {k : Nat}
    (h : Memory.read launch m k ≠ launch k) : (k, Memory.read launch m k) ∈ m := by
  induction m with
  | nil => exact absurd rfl h
  | cons c rest ih =>
    by_cases hk : c.1 = k
    · subst hk
      simp [Memory.read]
    · simp only [Memory.read, if_neg hk] at h ⊢
      exact List.mem_cons_of_mem _ (ih h)

/-- With the indexes rising, no cell is hidden by an earlier one. -/
theorem Memory.read_of_mem (launch : Nat → Byte) {m : Memory} (h : m.Pairwise fun c c' => c.1 < c'.1)
    {c : Host.Cell} (hc : c ∈ m) : Memory.read launch m c.1 = c.2 := by
  induction m with
  | nil => cases hc
  | cons b rest ih =>
    obtain ⟨hb, hrest⟩ := List.pairwise_cons.1 h
    rcases List.mem_cons.1 hc with rfl | hc
    · simp [Memory.read]
    · rw [Memory.read, if_neg (hb c hc).ne]
      exact ih hrest hc

/-- The cells of a canonical array are told by what it reads as. -/
theorem Memory.mem_iff_read {launch : Nat → Byte} {size : Nat} {m : Memory} (h : Memory.wf launch size m)
    (c : Host.Cell) : c ∈ m ↔ Memory.read launch m c.1 = c.2 ∧ c.2 ≠ launch c.1 := by
  obtain ⟨hrising, hcells⟩ := h
  constructor
  · intro hc
    exact ⟨Memory.read_of_mem launch hrising hc, (hcells c hc).2⟩
  · rintro ⟨hread, hne⟩
    have := Memory.mem_of_read_ne (hread.trans_ne hne)
    rwa [hread] at this

theorem Memory.nodup_of_rising {m : Memory} (h : m.Pairwise fun c c' => c.1 < c'.1) : m.Nodup :=
  h.imp fun hlt heq => hlt.ne (congrArg Prod.fst heq)

/-- Settles O34: the two arrays list the same cells, and a list is told by its members when they rise. -/
theorem canonicalMemoriesAreEqualData : Obligations.CanonicalMemoriesAreEqualData := by
  intro launch size m m' h h' hread
  have hmem : ∀ c, c ∈ m ↔ c ∈ m' := fun c => by
    rw [Memory.mem_iff_read h, Memory.mem_iff_read h', hread]
  have hperm : m.Perm m' :=
    (List.perm_ext_iff_of_nodup (Memory.nodup_of_rising h.1) (Memory.nodup_of_rising h'.1)).2 hmem
  exact hperm.eq_of_pairwise (fun c c' _ _ hlt hlt' => absurd hlt' hlt.asymm) h.1 h'.1

/-! ### What a transaction does not read -/

/-- In CartridgeSpace the unbound answer is open bus or a discarded write; no other operation reads the
cartridge. -/
theorem busOp_withCart {P : Params} {a : Addr} {f : State → Result} (hf : BusOp P a f) {s : State}
    (hb : s.mapperBound = false) (c : Cart) :
    f { s with cart := c } = mapNext (fun t => { t with cart := c }) (f s) := by
  cases hf with
  | readStore σ hw =>
    rw [readStore_next P hw, readStore_next P hw]
    cases σ <;> rfl
  | readDevice δ hw =>
    rw [readDevice_of_inWindow P hw, readDevice_of_inWindow P hw]
    cases devBound P δ <;> cases δ <;> rfl
  | readCart hw =>
    rw [readCart_of_unbound P hw hb, readCart_of_unbound P (s := { s with cart := c }) hw hb]
    rfl
  | writeStore σ d hw =>
    rw [writeStore_next P hw, writeStore_next P hw]
    cases σ <;> rfl
  | writeDevice δ d hw =>
    rw [writeDevice_of_inWindow P hw, writeDevice_of_inWindow P hw]
    cases devBound P δ <;> cases δ <;> rfl
  | writeCart d hw =>
    rw [writeCart_of_unbound P hw hb, writeCart_of_unbound P (s := { s with cart := c }) hw hb]
    rfl

/-- Settles O54: a transaction is one operation, and none reads the cartridge of an unbound mapper. -/
theorem unboundCartridgeIsUnread : Obligations.UnboundCartridgeIsUnread := by
  intro P w s c hb
  exact busOp_withCart (busOp_busTransaction P w) hb c

/-- Under `FIXED` the open-bus byte does not come from the latch (41_bus_read.md R139). -/
theorem openBus_of_fixed {P : Params} (hP : P.openBusPolicy = .fixed) (s : State) :
    openBus P s = P.openBusValue := by
  rw [openBus, hP]

/-- Under `FIXED` an unmapped read carries the latch over and answers the same whatever it holds. -/
theorem answerOpenBus_withLatch {P : Params} (hP : P.openBusPolicy = .fixed) (s : State) (x : Byte) :
    answerOpenBus P { s with dbLatch := x } = { answerOpenBus P s with dbLatch := x } := by
  simp only [answerOpenBus, openBus_of_fixed hP]

/-- Every answered read and every write sets the latch anew; under `FIXED` an unmapped read does not look at
it. -/
theorem busOp_withLatch {P : Params} (hP : P.openBusPolicy = .fixed) {a : Addr} {f : State → Result}
    (hf : BusOp P a f) (s : State) (x : Byte) :
    mapNext (fun t => { t with dbLatch := 0 }) (f { s with dbLatch := x }) =
      mapNext (fun t => { t with dbLatch := 0 }) (f s) := by
  cases hf with
  | readStore σ hw =>
    rw [readStore_next P hw, readStore_next P hw]
    cases σ <;> rfl
  | readDevice δ hw =>
    rw [readDevice_of_inWindow P hw, readDevice_of_inWindow P hw, answerOpenBus_withLatch hP]
    cases devBound P δ <;> cases δ <;> rfl
  | readCart hw =>
    rcases Bool.eq_false_or_eq_true s.mapperBound with hb | hb
    · rw [readCart_of_bound P hw hb, readCart_of_bound P (s := { s with dbLatch := x }) hw hb]
      cases resolve P s.cart a <;> rfl
    · rw [readCart_of_unbound P hw hb, readCart_of_unbound P (s := { s with dbLatch := x }) hw hb,
        answerOpenBus_withLatch hP]
      rfl
  | writeStore σ d hw =>
    rw [writeStore_next P hw, writeStore_next P hw]
    cases σ <;> rfl
  | writeDevice δ d hw =>
    rw [writeDevice_of_inWindow P hw, writeDevice_of_inWindow P hw]
    cases devBound P δ <;> cases δ <;> rfl
  | writeCart d hw =>
    rcases Bool.eq_false_or_eq_true s.mapperBound with hb | hb
    · rw [writeCart_of_bound P hw hb, writeCart_of_bound P (s := { s with dbLatch := x }) hw hb]
      cases resolve P (forward P s.cart a d) a <;> rfl
    · rw [writeCart_of_unbound P hw hb, writeCart_of_unbound P (s := { s with dbLatch := x }) hw hb]
      rfl

/-- Settles O55: a transaction is one operation, and none reads the latch under `FIXED`. -/
theorem latchIsUnreadUnderFixed : Obligations.LatchIsUnreadUnderFixed := by
  intro P w s x hP
  exact busOp_withLatch hP (busOp_busTransaction P w) s x

end Sys2Proof.Machine

/-! SUPPORT. Proofs about memory and ordering (20_memory.md): the windows and the mirrors of R59, the reads and
writes of each kind of window, and what a transaction, a step and a run keep of the session and of the stores. -/

namespace Sys2Proof.Machine

/-! ### The windows (R58) -/

/-- Settles O7: `Decode` names a region exactly when its window holds the address. -/
theorem regionsPartitionAddresses : Obligations.RegionsPartitionAddresses := by
  intro a
  refine ⟨(decodeAddress a).1, (decodeAddress_region a _).1 rfl, rfl, fun r' hw => ?_⟩
  exact ((decodeAddress_region a r').2 hw).symm

/-- Behind every window stands a store, a device port or the cartridge. -/
theorem inWindow_cases (a : Addr) :
    (∃ σ, inWindow (storeRegion σ) a = true) ∨ (∃ δ, inWindow (devRegion δ) a = true) ∨
      inWindow .cartridgeSpace a = true := by
  have hw := (decodeAddress_region a _).1 rfl
  cases hr : (decodeAddress a).1 <;> rw [hr] at hw
  case systemRAM => exact .inl ⟨.ram, hw⟩
  case pictureUnitRegisters => exact .inr (.inl ⟨.ppu, hw⟩)
  case audioAndIORegisters => exact .inr (.inl ⟨.aio, hw⟩)
  case expansionROM => exact .inl ⟨.exp, hw⟩
  case saveRAM => exact .inl ⟨.sram, hw⟩
  case cartridgeSpace => exact .inr (.inr hw)

theorem storeRegion_inj {σ ρ : StoreId} : storeRegion σ = storeRegion ρ ↔ σ = ρ := by
  cases σ <;> cases ρ <;> decide

theorem devRegion_ne_storeRegion (δ : DevId) (σ : StoreId) : devRegion δ ≠ storeRegion σ := by
  cases δ <;> cases σ <;> decide

theorem cartridgeSpace_ne_storeRegion (σ : StoreId) : Region.cartridgeSpace ≠ storeRegion σ := by
  cases σ <;> decide

/-! ### Mirrors (R59) -/

theorem reduceOffset_toNat (off period : Addr) :
    (reduceOffset off period).toNat =
      if period.toNat = 0 then off.toNat else off.toNat % period.toNat := by
  have hzero : period = 0 ↔ period.toNat = 0 := by simp [BitVec.toNat_eq]
  simp only [reduceOffset, hzero]
  split
  · rfl
  · exact BitVec.toNat_umod

/-- Settles O12: a reduced offset is the distance from the base, modulo the period where there is one. -/
theorem mirrorAliasLaw : Obligations.MirrorAliasLaw := by
  intro r a b ha hb
  rw [BitVec.toNat_eq, reduceOffset_toNat, reduceOffset_toNat, windowOffset_toNat ha, windowOffset_toNat hb]
  split
  · obtain ⟨hbase_a, -⟩ := (inWindow_iff r a).1 ha
    obtain ⟨hbase_b, -⟩ := (inWindow_iff r b).1 hb
    rw [BitVec.toNat_eq]
    omega
  · exact Iff.rfl

/-! ### Accesses in a window of each kind -/

section Windows

variable (P : Params) {a : Addr}

theorem busRead_of_store {σ : StoreId} (hw : inWindow (storeRegion σ) a = true) :
    busRead P a = readStore P σ a := by
  unfold busRead
  rw [(decodeAddress_region a _).2 hw]
  cases σ <;> rfl

theorem busRead_of_device {δ : DevId} (hw : inWindow (devRegion δ) a = true) :
    busRead P a = readDevice P δ a := by
  unfold busRead
  rw [(decodeAddress_region a _).2 hw]
  cases δ <;> rfl

theorem busRead_of_cart (hw : inWindow .cartridgeSpace a = true) : busRead P a = readCart P a := by
  unfold busRead
  rw [(decodeAddress_region a _).2 hw]

theorem busWrite_of_store {σ : StoreId} (hw : inWindow (storeRegion σ) a = true) :
    busWrite P a = writeStore P σ a := by
  unfold busWrite
  rw [(decodeAddress_region a _).2 hw]
  cases σ <;> rfl

theorem busWrite_of_device {δ : DevId} (hw : inWindow (devRegion δ) a = true) :
    busWrite P a = writeDevice P δ a := by
  unfold busWrite
  rw [(decodeAddress_region a _).2 hw]
  cases δ <;> rfl

theorem busWrite_of_cart (hw : inWindow .cartridgeSpace a = true) : busWrite P a = writeCart P a := by
  unfold busWrite
  rw [(decodeAddress_region a _).2 hw]

end Windows

/-! ### Accesses at mirrored addresses -/

section Mirrors

variable (P : Params) {a b : Addr}

/-- A store access depends on its address through the index only. -/
theorem storeAccess_congr {σ : StoreId} (ha : inWindow (storeRegion σ) a = true)
    (hb : inWindow (storeRegion σ) b = true)
    (h : storeIndex σ (windowOffset (storeRegion σ) a) = storeIndex σ (windowOffset (storeRegion σ) b))
    (s : State) : busRead P a s = busRead P b s ∧ ∀ d, busWrite P a d s = busWrite P b d s := by
  rw [busRead_of_store P ha, busRead_of_store P hb, busWrite_of_store P ha, busWrite_of_store P hb]
  refine ⟨?_, fun d => ?_⟩
  · rw [readStore_next P ha, readStore_next P hb, h]
  · rw [writeStore_next P ha, writeStore_next P hb, h]

/-- A device access depends on its address through the operand only. -/
theorem deviceAccess_congr {δ : DevId} (ha : inWindow (devRegion δ) a = true)
    (hb : inWindow (devRegion δ) b = true) (h : devOperand δ a = devOperand δ b) (s : State) :
    busRead P a s = busRead P b s ∧ ∀ d, busWrite P a d s = busWrite P b d s := by
  rw [busRead_of_device P ha, busRead_of_device P hb, busWrite_of_device P ha, busWrite_of_device P hb]
  refine ⟨?_, fun d => ?_⟩
  · rw [readDevice_of_inWindow P ha, readDevice_of_inWindow P hb, h]
  · rw [writeDevice_of_inWindow P ha, writeDevice_of_inWindow P hb, h]

end Mirrors

/-- Settles O13: the two windows with a period are SystemRAM's, whose accesses see the address as the store index,
and the picture unit's, whose accesses see it as the operand; congruent addresses have one reduced offset. -/
theorem mirroredAccessesAgree : Obligations.MirroredAccessesAgree := by
  intro P r a b ha hb hperiod hcong s
  have hreduced : reduceOffset (windowOffset r a) (regionPeriod r) =
      reduceOffset (windowOffset r b) (regionPeriod r) :=
    (mirrorAliasLaw r a b ha hb).2 (by rwa [if_neg hperiod])
  cases r with
  | systemRAM => exact storeAccess_congr P (σ := .ram) ha hb (congrArg BitVec.toNat hreduced) s
  | pictureUnitRegisters =>
    exact deviceAccess_congr P (δ := .ppu) ha hb (congrArg (BitVec.setWidth 8) hreduced) s
  | audioAndIORegisters => exact absurd rfl hperiod
  | expansionROM => exact absurd rfl hperiod
  | saveRAM => exact absurd rfl hperiod
  | cartridgeSpace => exact absurd rfl hperiod

/-! ### Reads outside the device windows (R65) -/

/-- What an answered read leaves is answered with the same byte again. -/
theorem answer_answer (v : Byte) (s : State) : answer v (answer v s) = answer v s := rfl

/-- An unmapped read leaves the open-bus byte as it was: it does not drive the latch (41_bus_read.md R140). -/
theorem answerOpenBus_answerOpenBus (P : Params) (s : State) :
    answerOpenBus P (answerOpenBus P s) = answerOpenBus P s := rfl

theorem readStore_idem {P : Params} {σ : StoreId} {a : Addr} {s t : State}
    (ht : readStore P σ a s = .next t) : readStore P σ a t = .next t := by
  obtain ⟨hw, hr⟩ | ⟨-, hr⟩ := readStore_cases ht <;> cases hr
  rw [readStore_next P hw, storeByte_congr P (storeCells_answer _ s σ), answer_answer]

theorem readCart_idem {P : Params} {a : Addr} {s t : State} (ht : readCart P a s = .next t) :
    readCart P a t = .next t := by
  obtain ⟨x, hw, hb, hx, hr⟩ | ⟨-, -, -, hr⟩ | ⟨hw, hb, hr⟩ | ⟨-, hr⟩ := readCart_cases ht <;> cases hr
  · rw [readCart_of_bound P hw (by simpa using hb), answer_cart, hx, Option.elim_some, answer_answer]
  · rw [readCart_of_unbound P hw (by simpa using hb), answerOpenBus_answerOpenBus]

/-- Settles O28: outside the device windows a read is one of a store or of the cartridge. -/
theorem plainReadsAreIdempotent : Obligations.PlainReadsAreIdempotent := by
  intro P a s t hppu haio ht
  rcases inWindow_cases a with ⟨σ, hw⟩ | ⟨δ, hw⟩ | hw
  · rw [busRead_of_store P hw] at ht ⊢
    exact readStore_idem ht
  · have hδ := (decodeAddress_region a _).2 hw
    cases δ with
    | ppu => exact absurd hδ hppu
    | aio => exact absurd hδ haio
  · rw [busRead_of_cart P hw] at ht ⊢
    exact readCart_idem ht

/-! ### A transaction neither reads nor changes the session's phase and inbox -/

section Session

variable {P : Params} {a : Addr} {f : State → Result}

theorem busOp_withSession (hf : BusOp P a f) (s : State) (p : Phase) (es : List Event) :
    f { s with phase := p, inbox := es } = mapNext (fun t => { t with phase := p, inbox := es }) (f s) := by
  cases hf with
  | readStore σ hw =>
    rw [readStore_next P hw, readStore_next P hw]
    cases σ <;> rfl
  | readDevice δ hw =>
    rw [readDevice_of_inWindow P hw, readDevice_of_inWindow P hw]
    cases devBound P δ <;> cases δ <;> rfl
  | readCart hw =>
    rcases Bool.eq_false_or_eq_true s.mapperBound with hb | hb
    · rw [readCart_of_bound P hw hb, readCart_of_bound P (s := { s with phase := p, inbox := es }) hw hb]
      cases resolve P s.cart a <;> rfl
    · rw [readCart_of_unbound P hw hb, readCart_of_unbound P (s := { s with phase := p, inbox := es }) hw hb]
      rfl
  | writeStore σ d hw =>
    rw [writeStore_next P hw, writeStore_next P hw]
    cases σ <;> rfl
  | writeDevice δ d hw =>
    rw [writeDevice_of_inWindow P hw, writeDevice_of_inWindow P hw]
    cases devBound P δ <;> cases δ <;> rfl
  | writeCart d hw =>
    rcases Bool.eq_false_or_eq_true s.mapperBound with hb | hb
    · rw [writeCart_of_bound P hw hb, writeCart_of_bound P (s := { s with phase := p, inbox := es }) hw hb]
      cases resolve P (forward P s.cart a d) a <;> rfl
    · rw [writeCart_of_unbound P hw hb, writeCart_of_unbound P (s := { s with phase := p, inbox := es }) hw hb]
      rfl

theorem busOp_session (hf : BusOp P a f) {s t : State} (ht : f s = .next t) :
    t.phase = s.phase ∧ t.inbox = s.inbox := by
  have h : f s = mapNext (fun t => { t with phase := s.phase, inbox := s.inbox }) (f s) :=
    busOp_withSession hf s s.phase s.inbox
  rw [ht, mapNext, Host.Outcome.next.injEq] at h
  rw [h]
  exact ⟨rfl, rfl⟩

/-- What is still waiting is carried along unread. -/
theorem busOp_withInbox (hf : BusOp P a f) (s : State) (es : List Event) :
    f { s with inbox := es } = mapNext (fun t => { t with inbox := es }) (f s) := by
  refine (busOp_withSession hf s s.phase es).trans ?_
  cases ht : f s with
  | next t =>
    obtain ⟨htp, -⟩ := busOp_session hf ht
    simp only [mapNext, htp]
  | fault x => rfl
  | refused x => rfl

end Session

/-! ### One step of the block -/

/-- With nothing issued, a session not ended waits. -/
theorem fetch_of_inbox_nil (P : Params) {s : State} (hi : s.inbox = []) (hp : s.phase ≠ .tornDown) :
    fetch P s = .done (.next s) := by
  cases hph : s.phase with
  | beforeConstruct => simp only [fetch, hph, hi]
  | live => simp only [fetch, hph, hi]
  | tornDown => exact absurd hph hp

theorem busStep_of_fetch_done {P : Params} {s : State} {r : Result} (h : fetch P s = .done r) :
    busStep P s = r := by
  simp only [busStep, h]

theorem busStep_of_fetch_transaction {P : Params} {s t : State} {w : TWord}
    (h : fetch P s = .transaction w t) : busStep P s = busTransaction P w t := by
  simp only [busStep, h]

/-- A live block with a transaction at the head of its inbox runs it, in the state that has taken it. -/
theorem busStep_of_transaction (P : Params) {s : State} {w : TWord} {rest : List Event}
    (hp : s.phase = .live) (hi : s.inbox = .transaction w :: rest) :
    busStep P s = busTransaction P w { s with inbox := rest } :=
  busStep_of_fetch_transaction (by rw [fetch_of_live_cons hp hi, takeLive_transaction])

/-- Settles O44: what is taken from an empty inbox is a wait. -/
theorem nothingIssuedNothingDone : Obligations.NothingIssuedNothingDone := by
  intro P s hi hp
  exact busStep_of_fetch_done (fetch_of_inbox_nil P hi hp)

/-- Settles O48, by induction on the words: a step takes the first word and runs it, and a transaction carries what
is still waiting along unread. -/
theorem transactionsRunInIssueOrder : Obligations.TransactionsRunInIssueOrder := by
  intro P ws rest s hp
  induction ws generalizing s with
  | nil => rfl
  | cons w ws ih =>
    have hstep : busStep P { s with inbox := (w :: ws).map .transaction ++ rest } =
        busTransaction P w { s with inbox := ws.map .transaction ++ rest } :=
      busStep_of_transaction P hp rfl
    have hcarry : busTransaction P w { s with inbox := ws.map .transaction ++ rest } =
        mapNext (fun t => { t with inbox := ws.map .transaction ++ rest })
          (busTransaction P w { s with inbox := rest }) :=
      busOp_withInbox (busOp_busTransaction P w) { s with inbox := rest } _
    simp only [List.length_cons, runSteps, runWords, hstep, hcarry]
    cases ht : busTransaction P w { s with inbox := rest } with
    | next t =>
      obtain ⟨htp, rfl⟩ : t.phase = s.phase ∧ t.inbox = rest := busOp_session (busOp_busTransaction P w) ht
      exact ih t (htp.trans hp)
    | fault x => rfl
    | refused x => rfl

/-! ### What an access does to the stores -/

section StoreBytes

variable {P : Params} {s t : State}

@[simp] theorem storeByte_answer (v : Byte) (σ : StoreId) (i : Nat) :
    storeByte P (answer v s) σ i = storeByte P s σ i := by
  simp [storeByte]

@[simp] theorem storeByte_answerOpenBus (σ : StoreId) (i : Nat) :
    storeByte P (answerOpenBus P s) σ i = storeByte P s σ i := by
  simp [storeByte]

@[simp] theorem storeByte_drive (d : Byte) (σ : StoreId) (i : Nat) :
    storeByte P (drive d s) σ i = storeByte P s σ i := by
  simp [storeByte]

@[simp] theorem storeByte_withDevice (δ : DevId) (x : DState) (σ : StoreId) (i : Nat) :
    storeByte P (withDevice s δ x) σ i = storeByte P s σ i := by
  simp [storeByte]

@[simp] theorem storeByte_withCart (c : Cart) (σ : StoreId) (i : Nat) :
    storeByte P { s with cart := c } σ i = storeByte P s σ i := rfl

@[simp] theorem storeByte_withInbox (es : List Event) (σ : StoreId) (i : Nat) :
    storeByte P { s with inbox := es } σ i = storeByte P s σ i := rfl

@[simp] theorem storeByte_loadCartridge (mp : CartId) (σ : StoreId) (i : Nat) :
    storeByte P (loadCartridge P mp s) σ i = storeByte P s σ i := rfl

@[simp] theorem storeByte_envStep (x y : DState) (σ : StoreId) (i : Nat) :
    storeByte P (envStep x y s) σ i = storeByte P s σ i := rfl

@[simp] theorem storeByte_teardown (σ : StoreId) (i : Nat) :
    storeByte P (teardown s) σ i = storeByte P s σ i := rfl

/-- No read changes a store byte (41_bus_read.md R143). -/
theorem storeByte_busRead {a : Addr} (ht : busRead P a s = .next t) (σ : StoreId) (i : Nat) :
    storeByte P t σ i = storeByte P s σ i := by
  rcases inWindow_cases a with ⟨ρ, hw⟩ | ⟨δ, hw⟩ | hw
  · rw [busRead_of_store P hw, readStore_next P hw] at ht
    cases ht
    simp
  · rw [busRead_of_device P hw] at ht
    obtain ⟨-, -, hr⟩ | ⟨-, -, hr⟩ | ⟨-, hr⟩ := readDevice_cases ht <;> cases hr
    · simp
    · simp
  · rw [busRead_of_cart P hw] at ht
    obtain ⟨x, -, -, -, hr⟩ | ⟨-, -, -, hr⟩ | ⟨-, -, hr⟩ | ⟨-, hr⟩ := readCart_cases ht <;> cases hr
    · simp
    · simp

/-- A write changes one byte of the store its address is in, and no other store byte (42_bus_write.md R162). -/
theorem storeByte_busWrite {a : Addr} {d : Byte} (ht : busWrite P a d s = .next t) (σ : StoreId) (i : Nat) :
    storeByte P t σ i =
      if (decodeAddress a).1 = storeRegion σ ∧ i = storeIndex σ (decodeAddress a).2 then d
      else storeByte P s σ i := by
  rcases inWindow_cases a with ⟨ρ, hw⟩ | ⟨δ, hw⟩ | hw <;>
    rw [decodeAddress_offset, (decodeAddress_region a _).2 hw]
  · rw [busWrite_of_store P hw, writeStore_next P hw] at ht
    cases ht
    rw [storeByte_drive, storeByte_setStoreByte]
    by_cases h : σ = ρ
    · subst h
      simp
    · simp [h, storeRegion_inj, Ne.symm h]
  · rw [busWrite_of_device P hw] at ht
    obtain ⟨-, -, hr⟩ | ⟨-, -, hr⟩ | ⟨-, hr⟩ := writeDevice_cases ht <;> cases hr
    · simp [devRegion_ne_storeRegion]
    · simp [devRegion_ne_storeRegion]
  · rw [busWrite_of_cart P hw] at ht
    obtain ⟨x, -, -, -, hr⟩ | ⟨-, -, -, hr⟩ | ⟨-, -, hr⟩ | ⟨-, hr⟩ := writeCart_cases ht <;> cases hr
    · simp [cartridgeSpace_ne_storeRegion]
    · simp [cartridgeSpace_ne_storeRegion]

/-- A transaction that does not write a store byte leaves it. -/
theorem storeByte_busTransaction {w : TWord} {σ : StoreId} {i : Nat}
    (hw : ¬ writesStoreByte σ i (.transaction w)) (ht : busTransaction P w s = .next t) :
    storeByte P t σ i = storeByte P s σ i := by
  unfold busTransaction at ht
  split at ht
  · exact storeByte_busRead ht σ i
  · next hop =>
    have hop : wordOp w = 1 := by bv_omega
    rw [storeByte_busWrite ht, if_neg]
    rintro ⟨hregion, hi⟩
    exact hw ⟨w, rfl, hop, hregion, hi.symm⟩

end StoreBytes

/-! ### Runs (R66, R67) -/

/-- What every step keeps holds at the end of a run. -/
theorem runSteps_keeps {P : Params} {I : State → Prop}
    (hstep : ∀ s t, I s → busStep P s = .next t → I t) {n : Nat} {s t : State} (h : I s)
    (ht : runSteps P n s = .next t) : I t := by
  induction n generalizing s with
  | zero =>
    cases ht
    exact h
  | succ n ih =>
    rw [runSteps] at ht
    split at ht
    · next u hu => exact ih (hstep s u h hu) ht
    · cases ht
    · cases ht

/-- A constructed block holds byte `v` at element `i` of a store, and nothing issued to it writes there. -/
def HoldsByte (P : Params) (σ : StoreId) (i : Nat) (v : Byte) (s : State) : Prop :=
  s.phase ≠ .beforeConstruct ∧ (∀ e ∈ s.inbox, ¬ writesStoreByte σ i e) ∧ storeByte P s σ i = v

section HoldsByte

variable {P : Params} {σ : StoreId} {i : Nat} {v : Byte} {s t : State}

/-- Taking events from the inbox issues none. -/
theorem holdsByte_withInbox {es : List Event} (h : HoldsByte P σ i v s) (hes : ∀ e ∈ es, e ∈ s.inbox) :
    HoldsByte P σ i v { s with inbox := es } := by
  obtain ⟨hp, hi, hv⟩ := h
  exact ⟨hp, fun e he => hi e (hes e he), hv⟩

theorem holdsByte_busTransaction {w : TWord} (h : HoldsByte P σ i v s)
    (hw : ¬ writesStoreByte σ i (.transaction w)) (ht : busTransaction P w s = .next t) :
    HoldsByte P σ i v t := by
  obtain ⟨hp, hi, hv⟩ := h
  obtain ⟨htp, hti⟩ := busOp_session (busOp_busTransaction P w) ht
  exact ⟨htp ▸ hp, hti ▸ hi, (storeByte_busTransaction hw ht).trans hv⟩

/-- Waiting, `LOAD_CARTRIDGE`, `ENV_STEP` and `TEARDOWN` leave the stores. -/
theorem holdsByte_of_fetch_next (h : HoldsByte P σ i v s) (hf : fetch P s = .done (.next t)) :
    HoldsByte P σ i v t := by
  have htaken {e : Event} {rest : List Event} (hi : s.inbox = e :: rest) :
      HoldsByte P σ i v { s with inbox := rest } :=
    holdsByte_withInbox h (by simp +contextual [hi])
  obtain ⟨-, -, rfl⟩ | ⟨mp, rest, hp, -, -⟩ | ⟨mp, rest, -, hi, rfl⟩ | ⟨x, y, rest, -, hi, -, rfl⟩ |
    ⟨rest, -, hi, rfl⟩ := fetch_next hf
  · exact h
  · exact absurd hp h.1
  · exact htaken hi
  · exact htaken hi
  · obtain ⟨-, hspare, hv⟩ := htaken hi
    exact ⟨by simp [teardown], hspare, hv⟩

theorem holdsByte_busStep (h : HoldsByte P σ i v s) (ht : busStep P s = .next t) : HoldsByte P σ i v t := by
  cases hf : fetch P s with
  | transaction w u =>
    rw [busStep_of_fetch_transaction hf] at ht
    obtain ⟨-, rest, hi, rfl⟩ := fetch_transaction hf
    have hw : ¬ writesStoreByte σ i (.transaction w) := h.2.1 _ (by simp [hi])
    exact holdsByte_busTransaction (holdsByte_withInbox h (by simp +contextual [hi])) hw ht
  | done r =>
    rw [busStep_of_fetch_done hf] at ht
    subst ht
    exact holdsByte_of_fetch_next h hf

theorem holdsByte_runSteps {n : Nat} (h : HoldsByte P σ i v s) (ht : runSteps P n s = .next t) :
    HoldsByte P σ i v t :=
  runSteps_keeps (fun _ _ => holdsByte_busStep) h ht

/-- A write in a store's window puts its byte at the element its address names. -/
theorem storeByte_busWrite_same {a : Addr} {d : Byte} (ha : inWindow (storeRegion σ) a = true)
    (ht : busWrite P a d s = .next t) :
    storeByte P t σ (storeIndex σ (windowOffset (storeRegion σ) a)) = d := by
  have hregion := (decodeAddress_region a _).2 ha
  rw [storeByte_busWrite ht, if_pos ⟨hregion, by rw [decodeAddress_offset, hregion]⟩]

end HoldsByte

/-- Settles O35: that the block holds the byte, and that nothing issued writes it, is kept by every step. -/
theorem runKeepsUnwrittenStoreByte : Obligations.RunKeepsUnwrittenStoreByte := by
  intro P n s t σ i hp hspare ht
  obtain ⟨-, -, hv⟩ := holdsByte_runSteps ⟨hp, hspare, rfl⟩ ht
  exact hv

/-- Settles O36: the write puts the byte where the read looks, and the run keeps it there. -/
theorem readAfterWriteAcrossRun : Obligations.ReadAfterWriteAcrossRun := by
  intro P σ a b d n s t t' ha hb halias hp hspare hwrite hrun
  obtain ⟨htp, hti⟩ := busOp_session (busOp_busWrite P a d) hwrite
  have hholds : HoldsByte P σ (storeIndex σ (windowOffset (storeRegion σ) a)) d t :=
    ⟨htp ▸ hp, hti ▸ hspare, storeByte_busWrite_same ha hwrite⟩
  obtain ⟨-, -, hv⟩ := holdsByte_runSteps hholds hrun
  rw [busRead_of_store P hb, readStore_next P hb, ← halias, hv]
  exact ⟨_, rfl, rfl⟩

end Sys2Proof.Machine

/-! SUPPORT. Proofs about the encoding (30_encoding.md): the fields of a word are the operands of its instruction, in
both directions, and decoding and dispatching a word is the Bus's own routing. -/

namespace Sys2Proof

open Machine

/-! ### Decoding by fields (R81, R86) -/

theorem decode_of_read {w : TWord} (hop : wordOp w = 0) :
    decode w = rdInstr (decodeAddress (wordAddr w)).1 (wordAddr w) := if_pos hop

theorem decode_of_write {w : TWord} (hop : wordOp w ≠ 0) :
    decode w = wrInstr (decodeAddress (wordAddr w)).1 (wordAddr w) (wordData w) := if_neg hop

@[simp] theorem rdInstr_region (r : Region) (a : Addr) : (rdInstr r a).region = r := by cases r <;> rfl
@[simp] theorem rdInstr_op (r : Region) (a : Addr) : (rdInstr r a).op = 0 := by cases r <;> rfl
@[simp] theorem rdInstr_addr (r : Region) (a : Addr) : (rdInstr r a).addr = a := by cases r <;> rfl
@[simp] theorem rdInstr_data (r : Region) (a : Addr) : (rdInstr r a).data = 0 := by cases r <;> rfl

@[simp] theorem wrInstr_region (r : Region) (a : Addr) (d : Byte) : (wrInstr r a d).region = r := by
  cases r <;> rfl
@[simp] theorem wrInstr_op (r : Region) (a : Addr) (d : Byte) : (wrInstr r a d).op = 1 := by
  cases r <;> rfl
@[simp] theorem wrInstr_addr (r : Region) (a : Addr) (d : Byte) : (wrInstr r a d).addr = a := by
  cases r <;> rfl
@[simp] theorem wrInstr_data (r : Region) (a : Addr) (d : Byte) : (wrInstr r a d).data = d := by
  cases r <;> rfl

theorem op_eq_one_of_ne_zero {op : BitVec 1} (h : op ≠ 0) : op = 1 :=
  (BitVec.eq_zero_or_eq_one op).resolve_left h

/-- An instruction is told by its operation, region, address and data. -/
theorem instr_of_fields (i : Instr) :
    (if i.op = 0 then rdInstr i.region i.addr else wrInstr i.region i.addr i.data) = i := by
  cases i <;> rfl

theorem encode_eq_assemble (i : Instr) : encode i = assemble i.op i.addr i.data := by
  cases i <;> rfl

theorem assemble_fields (w : TWord) : assemble (wordOp w) (wordAddr w) (wordData w) = w := by
  apply BitVec.eq_of_toNat_eq
  rw [assemble_toNat, wordOp_toNat, wordAddr_toNat, wordData_toNat]
  omega

/-- Settles O2: the word's fields are the instruction's own, and the address of a well-formed instruction lies in
the window of its region, so `Decode` names that region. -/
theorem decodeOfEncode : Obligations.DecodeOfEncode := by
  intro i hwf
  obtain ⟨hop, haddr, hdata⟩ := Laws.EncodeFields.fields_of_assemble (encode_eq_assemble i)
  have hregion : (decodeAddress i.addr).1 = i.region := (decodeAddress_region _ _).2 hwf
  rw [decode, hop, haddr, hdata, hregion]
  exact instr_of_fields i

theorem decode_region (w : TWord) : (decode w).region = (decodeAddress (wordAddr w)).1 := by
  unfold decode
  split <;> simp

theorem decode_addr (w : TWord) : (decode w).addr = wordAddr w := by
  unfold decode
  split <;> simp

theorem wf_decode (w : TWord) : (decode w).wf = true := by
  rw [Instr.wf, decode_region, decode_addr]
  exact (decodeAddress_region _ _).1 rfl

/-- Settles O3: `Decode` names the window that holds the address; the canonical word has the fields of `w` but for
the data of a read. -/
theorem encodeOfDecode : Obligations.EncodeOfDecode := by
  intro w
  refine ⟨wf_decode w, ?_⟩
  rw [encode_eq_assemble]
  split
  · next hop => simp [decode_of_read hop]
  · next hop =>
    rw [decode_of_write hop, wrInstr_op, wrInstr_addr, wrInstr_data, ← op_eq_one_of_ne_zero hop, assemble_fields]

/-- Settles O4: only a write's instruction has the data field as operand. -/
theorem readIgnoresData : Obligations.ReadIgnoresData := by
  intro w w' hop hop' haddr
  rw [decode_of_read hop, decode_of_read hop', haddr]

/-- Settles O1: the decoder evaluated on each word. -/
theorem spelledWordsDecode : Obligations.SpelledWordsDecode := by
  unfold Obligations.SpelledWordsDecode
  decide

/-- Settles O47: both halves are rules of the state proofs, `busTransaction` being the choice by the `op` bit. -/
theorem stepIsBusStep : Obligations.StepIsBusStep :=
  ⟨exec_decode, step_eq_busStep⟩

end Sys2Proof

/-! SUPPORT. Proofs about the opcode table (30_encoding.md R95): every row matches an interval of words, the 26
intervals follow one another over all words, and each lies among the words of its mnemonic. -/

namespace Sys2Proof

open Machine

/-! ### A row matches an interval of words -/

/-- The first number after the words a row matches. -/
def OpcodeRow.stop (row : OpcodeRow) : Nat := row.pattern.toNat + (2 ^ 25 - row.mask.toNat)

theorem OpcodeRow.start_le_stop (row : OpcodeRow) : row.pattern.toNat ≤ row.stop := Nat.le_add_right _ _

/-- A mask of all bits from `k` up compares the words' high bits, so it cuts out an interval of `2 ^ k` words. -/
theorem and_highBitsMask_eq_iff (k : Nat) {w p : TWord} (hp : 2 ^ k ∣ p.toNat) :
    w &&& BitVec.allOnes 25 <<< k = p ↔ p.toNat ≤ w.toNat ∧ w.toNat < p.toNat + 2 ^ k := by
  obtain ⟨q, hq⟩ := hp
  have hpos : 0 < 2 ^ k := Nat.two_pow_pos k
  have hhigh : (w &&& BitVec.allOnes 25 <<< k).toNat = 2 ^ k * (w.toNat / 2 ^ k) := by
    have hlt : w.toNat / 2 ^ k * 2 ^ k < 2 ^ 25 := (Nat.div_mul_le_self _ _).trans_lt w.isLt
    rw [← BitVec.shiftLeft_ushiftRight, BitVec.toNat_shiftLeft, BitVec.toNat_ushiftRight,
      Nat.shiftRight_eq_div_pow, Nat.shiftLeft_eq, Nat.mod_eq_of_lt hlt, Nat.mul_comm]
  rw [BitVec.toNat_eq, hhigh, hq, Nat.mul_right_inj hpos.ne', Nat.div_eq_iff hpos, Nat.mul_comm q]
  omega

/-- Every mask of the table is one of all bits from some `k` up, and its pattern is zero below `k`. -/
theorem opcodeRows_highBitsMask :
    ∀ row ∈ opcodeRows, ∃ k < 25, row.mask = BitVec.allOnes 25 <<< k ∧ 2 ^ k ∣ row.pattern.toNat ∧
      row.stop = row.pattern.toNat + 2 ^ k := by
  decide

theorem rowMatches_iff {row : OpcodeRow} (hrow : row ∈ opcodeRows) (w : TWord) :
    rowMatches row w = true ↔ row.pattern.toNat ≤ w.toNat ∧ w.toNat < row.stop := by
  obtain ⟨k, -, hmask, hpattern, hstop⟩ := opcodeRows_highBitsMask row hrow
  rw [rowMatches, beq_iff_eq, hmask, and_highBitsMask_eq_iff k hpattern, hstop]

/-! ### The rows follow one another -/

/-- Each row's interval begins where the one before ends, the first at `lo`, and the last ends at `hi`. -/
def tiles (lo : Nat) (rows : List OpcodeRow) (hi : Nat) : Bool :=
  match rows with
  | [] => lo == hi
  | row :: rest => row.pattern.toNat == lo && tiles row.stop rest hi

theorem tiles_opcodeRows : tiles 0 opcodeRows (2 ^ 25) = true := by decide

theorem tiles_cons {lo hi : Nat} {row : OpcodeRow} {rest : List OpcodeRow} :
    tiles lo (row :: rest) hi = true ↔ row.pattern.toNat = lo ∧ tiles row.stop rest hi = true := by
  simp [tiles]

section Tiles

variable {w : TWord} {rows : List OpcodeRow}

theorem le_start_of_tiles {lo hi : Nat} (h : tiles lo rows hi = true) :
    ∀ row ∈ rows, lo ≤ row.pattern.toNat := by
  induction rows generalizing lo with
  | nil => simp
  | cons first rest ih =>
    obtain ⟨rfl, hrest⟩ := tiles_cons.1 h
    intro row hrow
    rcases List.mem_cons.1 hrow with rfl | hrow
    · exact le_rfl
    · exact first.start_le_stop.trans (ih hrest row hrow)

/-- Among rows that follow one another exactly one matches a word of their range. -/
theorem filter_rowMatches_of_tiles {lo hi : Nat} (h : tiles lo rows hi = true) (hsub : rows ⊆ opcodeRows)
    (hlo : lo ≤ w.toNat) (hhi : w.toNat < hi) :
    ∃ row, rows.filter (fun row => rowMatches row w) = [row] := by
  induction rows generalizing lo with
  | nil =>
    have : lo = hi := by simpa [tiles] using h
    omega
  | cons first rest ih =>
    obtain ⟨rfl, hrest⟩ := tiles_cons.1 h
    obtain ⟨hfirst, hsub⟩ := List.cons_subset.1 hsub
    by_cases hin : w.toNat < first.stop
    · have hnone : ∀ row ∈ rest, ¬ rowMatches row w = true := by
        intro row hrow hm
        obtain ⟨hstart, -⟩ := (rowMatches_iff (hsub hrow) w).1 hm
        have := le_start_of_tiles hrest row hrow
        omega
      have hmatch : rowMatches first w = true := (rowMatches_iff hfirst w).2 ⟨hlo, hin⟩
      exact ⟨first, by rw [List.filter_cons, if_pos hmatch, List.filter_eq_nil_iff.2 hnone]⟩
    · have hmiss : ¬ rowMatches first w = true := fun hm => hin ((rowMatches_iff hfirst w).1 hm).2
      rw [List.filter_cons, if_neg hmiss]
      exact ih hrest hsub (not_lt.1 hin)

end Tiles

/-! ### Each row lies among the words of its mnemonic -/

/-- The mnemonic depends on a word's operation and region only. -/
theorem mnemonic_decode_congr {w v : TWord} (hop : wordOp w = wordOp v)
    (hregion : (decodeAddress (wordAddr w)).1 = (decodeAddress (wordAddr v)).1) :
    mnemonic (decode w) = mnemonic (decode v) := by
  unfold decode
  rw [hop, hregion]
  split <;> cases (decodeAddress (wordAddr v)).1 <;> rfl

/-- The first number after the words of operation `op` with an address in the window of `r`. -/
def wordsStop (op : BitVec 1) (r : Region) : Nat :=
  op.toNat * 2 ^ 24 + ((regionBase r).toNat + regionSize r) * 2 ^ 8

theorem regionBase_add_regionSize_le (r : Region) : (regionBase r).toNat + regionSize r ≤ 2 ^ 16 := by
  cases r <;> decide

/-- The words of one operation and region are an interval. -/
theorem fields_eq_of_le_of_lt_wordsStop {v w : TWord} (hle : v.toNat ≤ w.toNat)
    (hlt : w.toNat < wordsStop (wordOp v) (decodeAddress (wordAddr v)).1) :
    wordOp w = wordOp v ∧ (decodeAddress (wordAddr w)).1 = (decodeAddress (wordAddr v)).1 := by
  obtain ⟨hbase, -⟩ := (inWindow_iff _ _).1 ((decodeAddress_region (wordAddr v) _).1 rfl)
  have hend := regionBase_add_regionSize_le (decodeAddress (wordAddr v)).1
  rw [decodeAddress_region, inWindow_iff, BitVec.toNat_eq]
  rw [wordsStop] at hlt
  rw [wordAddr_toNat] at hbase
  rw [wordOp_toNat] at hlt
  rw [wordOp_toNat, wordOp_toNat, wordAddr_toNat]
  omega

/-- A row has the mnemonic of the first word it matches, and ends no later than the words of that mnemonic. -/
theorem opcodeRows_mnemonic :
    ∀ row ∈ opcodeRows, row.mnemonic = mnemonic (decode row.pattern) ∧
      row.stop ≤ wordsStop (wordOp row.pattern) (decodeAddress (wordAddr row.pattern)).1 := by
  decide

theorem mnemonic_of_rowMatches {row : OpcodeRow} (hrow : row ∈ opcodeRows) {w : TWord}
    (hm : rowMatches row w = true) : row.mnemonic = mnemonic (decode w) := by
  obtain ⟨hstart, hlt⟩ := (rowMatches_iff hrow w).1 hm
  obtain ⟨hmnemonic, hstop⟩ := opcodeRows_mnemonic row hrow
  obtain ⟨hop, hregion⟩ := fields_eq_of_le_of_lt_wordsStop hstart (hlt.trans_le hstop)
  rw [hmnemonic, mnemonic_decode_congr hop hregion]

/-- Settles O5: the 26 rows tile all words, and the row that matches has the mnemonic of the decoder. -/
theorem eachWordMatchesOneRow : Obligations.EachWordMatchesOneRow := by
  intro w
  obtain ⟨row, hfilter⟩ :=
    filter_rowMatches_of_tiles tiles_opcodeRows (List.Subset.refl _) (Nat.zero_le w.toNat) w.isLt
  have hmem : row ∈ opcodeRows.filter fun row => rowMatches row w := by
    rw [hfilter]
    exact List.mem_singleton_self row
  obtain ⟨hrow, hm⟩ := List.mem_filter.1 hmem
  rw [hfilter, List.map_singleton, mnemonic_of_rowMatches hrow hm]

end Sys2Proof

/-! SUPPORT. Proofs about the address bits (30_encoding.md R87, R88, R91): the select terms, and the operands as
slices of the address. -/

namespace Sys2Proof.Machine

/-! ### The select terms (R87) -/

theorem extractLsb'_eq_iff {a : Addr} {start len : Nat} {v : BitVec len} :
    a.extractLsb' start len = v ↔ a.toNat / 2 ^ start % 2 ^ len = v.toNat := by
  rw [BitVec.toNat_eq, BitVec.extractLsb'_toNat, Nat.shiftRight_eq_div_pow]

/-- A select term says that its region's window holds the address. -/
theorem selects_iff (r : Region) (a : Addr) : selects r a = true ↔ inWindow r a = true := by
  have := a.isLt
  rw [inWindow_iff]
  cases r <;> simp [selects, extractLsb'_eq_iff, regionBase, regionSize] <;> omega

/-- Settles O9: `Decode` too names the region whose window holds the address. -/
theorem selectTermsMatchDecode : Obligations.SelectTermsMatchDecode := by
  intro a r
  rw [selects_iff, decodeAddress_region]

/-! ### The operands as slices of the address (R88) -/

section Operands

variable {a : Addr}

theorem extractLsb'_zero_toNat (a : Addr) (len : Nat) : (a.extractLsb' 0 len).toNat = a.toNat % 2 ^ len := by
  rw [BitVec.extractLsb'_toNat, Nat.shiftRight_zero]

theorem storeIndex_ram_bits (h : inWindow .systemRAM a = true) :
    storeIndex .ram (windowOffset .systemRAM a) = (a.extractLsb' 0 11).toNat := by
  rw [storeIndex_ram, windowOffset_toNat h, extractLsb'_zero_toNat]
  rfl

theorem devOperand_ppu_bits (h : inWindow .pictureUnitRegisters a = true) :
    devOperand .ppu a = (a.extractLsb' 0 3).setWidth 8 := by
  have hw := (inWindow_iff _ _).1 h
  apply BitVec.eq_of_toNat_eq
  rw [devOperand_ppu h, BitVec.toNat_ofNat, BitVec.toNat_setWidth, extractLsb'_zero_toNat]
  simp only [regionBase, regionSize, BitVec.reduceToNat] at hw
  omega

theorem devOperand_aio_bits (h : inWindow .audioAndIORegisters a = true) :
    devOperand .aio a = (a.extractLsb' 0 5).setWidth 8 := by
  have hw := (inWindow_iff _ _).1 h
  apply BitVec.eq_of_toNat_eq
  rw [devOperand_aio h, BitVec.toNat_ofNat, BitVec.toNat_setWidth, extractLsb'_zero_toNat]
  simp only [regionBase, regionSize, BitVec.reduceToNat] at hw
  omega

/-- The window begins 0x20 past a multiple of 0x2000, so the difference does not borrow. -/
theorem storeIndex_exp_bits (h : inWindow .expansionROM a = true) :
    storeIndex .exp (windowOffset .expansionROM a) = (a.extractLsb' 0 13).toNat - 0x20 ∧
      0x20 ≤ (a.extractLsb' 0 13).toNat := by
  have hw := (inWindow_iff _ _).1 h
  rw [storeIndex_exp, windowOffset_toNat h, extractLsb'_zero_toNat]
  simp only [regionBase, regionSize, BitVec.reduceToNat] at hw ⊢
  omega

theorem storeIndex_sram_bits (h : inWindow .saveRAM a = true) :
    storeIndex .sram (windowOffset .saveRAM a) = (a.extractLsb' 0 13).toNat := by
  have hw := (inWindow_iff _ _).1 h
  rw [storeIndex_sram, windowOffset_toNat h, extractLsb'_zero_toNat]
  simp only [regionBase, regionSize, BitVec.reduceToNat] at hw ⊢
  omega

theorem windowOffset_cartridgeSpace_bits (h : inWindow .cartridgeSpace a = true) :
    windowOffset .cartridgeSpace a = (a.extractLsb' 0 15).setWidth 16 := by
  have hw := (inWindow_iff _ _).1 h
  apply BitVec.eq_of_toNat_eq
  rw [windowOffset_toNat h, BitVec.toNat_setWidth, extractLsb'_zero_toNat]
  simp only [regionBase, regionSize, BitVec.reduceToNat] at hw ⊢
  omega

end Operands

/-- Settles O10: one slice for each window. -/
theorem operandsAreAddressBits : Obligations.OperandsAreAddressBits := fun _ =>
  ⟨storeIndex_ram_bits, devOperand_ppu_bits, devOperand_aio_bits, storeIndex_exp_bits, storeIndex_sram_bits,
    windowOffset_cartridgeSpace_bits⟩

/-- A number of `len` bits stays below `2 ^ len` in the byte a device receives. -/
theorem toNat_setWidth_lt {len : Nat} (x : BitVec len) : (x.setWidth 8).toNat < 2 ^ len := by
  rw [BitVec.toNat_setWidth]
  exact (Nat.mod_le _ _).trans_lt x.isLt

/-- Settles O11: the operands are slices of three and of five address bits. -/
theorem devicesSeeTheirOffsetsOnly : Obligations.DevicesSeeTheirOffsetsOnly := by
  intro a
  refine ⟨fun h => ?_, fun h => ?_⟩
  · rw [devOperand_ppu_bits h]
    exact toNat_setWidth_lt _
  · rw [devOperand_aio_bits h]
    exact toNat_setWidth_lt _

end Sys2Proof.Machine

/-! SUPPORT. Proofs about the AddressDecoder (40_address_decoder.md): the range of the offset, and what `Decode`
answers in each window. -/

namespace Sys2Proof.Machine

/-- Settles O8: `Decode` names the window that holds the address, and in its window an address's offset is
an exact difference. -/
theorem offsetIsDistanceInWindow : Obligations.OffsetIsDistanceInWindow := by
  intro a
  have hw : inWindow (decodeAddress a).1 a = true := (decodeAddress_region a _).1 rfl
  have hbase := ((inWindow_iff _ _).1 hw).1
  rw [decodeAddress_offset]
  refine ⟨?_, windowOffset_lt hw⟩
  rw [windowOffset_toNat hw, Nat.sub_add_cancel hbase]

/-- The whole answer of `Decode` in a window (R111). -/
theorem decodeAddress_of_inWindow {r : Region} {a : Addr} (h : inWindow r a = true) :
    decodeAddress a = (r, windowOffset r a) := by
  have hr : (decodeAddress a).1 = r := (decodeAddress_region a r).2 h
  have ho : (decodeAddress a).2 = windowOffset r a := hr ▸ decodeAddress_offset a
  exact Prod.ext hr ho

/-- The same with the window as a range of the region table. -/
theorem decodeAddress_of_range (r : Region) {a : Addr} (hlo : (regionBase r).toNat ≤ a.toNat)
    (hhi : a.toNat < (regionBase r).toNat + regionSize r) : decodeAddress a = (r, a - regionBase r) :=
  decodeAddress_of_inWindow ((inWindow_iff r a).2 ⟨hlo, hhi⟩)

/-- Settles O6: each of the six ranges is the window of its region. The first begins at 0 and the last ends
with the address space, so each of them states one bound only. -/
theorem decodeByRanges : Obligations.DecodeByRanges := by
  intro a
  refine ⟨fun hhi => ?_, fun hlo hhi => ?_, fun hlo hhi => ?_, fun hlo hhi => ?_, fun hlo hhi => ?_,
    fun hlo => ?_⟩
  · exact decodeAddress_of_range .systemRAM (Nat.zero_le _) (Nat.lt_succ_of_le hhi)
  · exact decodeAddress_of_range .pictureUnitRegisters hlo (Nat.lt_succ_of_le hhi)
  · exact decodeAddress_of_range .audioAndIORegisters hlo (Nat.lt_succ_of_le hhi)
  · exact decodeAddress_of_range .expansionROM hlo (Nat.lt_succ_of_le hhi)
  · exact decodeAddress_of_range .saveRAM hlo (Nat.lt_succ_of_le hhi)
  · exact decodeAddress_of_range .cartridgeSpace hlo a.isLt

end Sys2Proof.Machine

/-! SUPPORT. Proofs about the reads (41_bus_read.md): the words of a read row, what a read answers in the window of
each store, device port and cartridge, and what every read leaves unchanged. -/

namespace Sys2Proof

open Machine

/-! ### The words of a row -/

/-- The words a row matches have the operation and the region of the first of them. -/
theorem fields_of_rowMatches {row : OpcodeRow} (hrow : row ∈ opcodeRows) {w : TWord}
    (hm : rowMatches row w = true) :
    wordOp w = wordOp row.pattern ∧
      (decodeAddress (wordAddr w)).1 = (decodeAddress (wordAddr row.pattern)).1 := by
  obtain ⟨hstart, hlt⟩ := (rowMatches_iff hrow w).1 hm
  obtain ⟨-, hstop⟩ := opcodeRows_mnemonic row hrow
  exact fields_eq_of_le_of_lt_wordsStop hstart (hlt.trans_le hstop)

theorem rdRows_op : ∀ row ∈ rdRows, wordOp row.pattern = 0 := by decide

theorem decode_of_rdRow (name : String) {mask pattern : TWord} (r : Region)
    (hrow : ⟨name, mask, pattern⟩ ∈ rdRows) (hr : (decodeAddress (wordAddr pattern)).1 = r) {w : TWord}
    (hm : w &&& mask = pattern) : decode w = rdInstr r (wordAddr w) := by
  obtain ⟨hop, hregion⟩ := fields_of_rowMatches (List.mem_append_left wrRows hrow) (beq_iff_eq.2 hm)
  rw [decode_of_read (hop.trans (rdRows_op _ hrow)), hregion, hr]

end Sys2Proof

namespace Sys2Proof.Machine

/-! ### What stands behind an address -/

section Unmapped

variable (P : Params) (s : State) {a : Addr}

theorem unmapped_of_store {σ : StoreId} (hw : inWindow (storeRegion σ) a = true) : unmapped P s a = false := by
  unfold unmapped
  rw [(decodeAddress_region a _).2 hw]
  cases σ <;> rfl

theorem unmapped_of_device {δ : DevId} (hw : inWindow (devRegion δ) a = true) :
    unmapped P s a = !devBound P δ := by
  unfold unmapped
  rw [(decodeAddress_region a _).2 hw]
  cases δ <;> rfl

theorem unmapped_of_cart (hw : inWindow .cartridgeSpace a = true) : unmapped P s a = !s.mapperBound := by
  unfold unmapped
  rw [(decodeAddress_region a _).2 hw]

end Unmapped

/-! ### Store reads -/

section StoreReads

variable {a : Addr}

theorem storeIndex_ram_of_inWindow (hw : inWindow .systemRAM a = true) :
    storeIndex .ram (windowOffset .systemRAM a) = a.toNat % 0x0800 := by
  rw [storeIndex_ram, windowOffset_toNat hw]
  rfl

theorem storeIndex_exp_of_inWindow (hw : inWindow .expansionROM a = true) :
    storeIndex .exp (windowOffset .expansionROM a) = a.toNat - 0x4020 := by
  rw [storeIndex_exp, windowOffset_toNat hw]
  rfl

theorem storeIndex_sram_of_inWindow (hw : inWindow .saveRAM a = true) :
    storeIndex .sram (windowOffset .saveRAM a) = a.toNat - 0x6000 := by
  rw [storeIndex_sram, windowOffset_toNat hw]
  rfl

theorem readStore_of_index (P : Params) {σ : StoreId} {i : Nat} (hw : inWindow (storeRegion σ) a = true)
    (hi : storeIndex σ (windowOffset (storeRegion σ) a) = i) (s : State) :
    readStore P σ a s = .next (answer (storeByte P s σ i) s) := by
  rw [readStore_next P hw, hi]

end StoreReads

/-- Settles O14: SystemRAM's index is the address modulo its period. -/
theorem readRamReturnsStoreByte : Obligations.ReadRamReturnsStoreByte := by
  refine ⟨fun _ => decode_of_rdRow "RD.RAM" .systemRAM (by decide) (by decide), fun a s hhi => ?_⟩
  have hw : inWindow .systemRAM a = true := (inWindow_iff _ a).2 ⟨Nat.zero_le _, Nat.lt_succ_of_le hhi⟩
  exact readStore_of_index Config.params (σ := .ram) hw (storeIndex_ram_of_inWindow hw) s

/-- Settles O17: ExpansionROM's index is the distance from its base, and R135's encoding condition is its select
term. -/
theorem readExpReturnsStoreByte : Obligations.ReadExpReturnsStoreByte := by
  refine ⟨fun w hop hhigh hlow => ?_, fun a s hlo hhi => ?_⟩
  · have hsel : selects .expansionROM (wordAddr w) = true := by simpa [selects, hhigh] using hlow
    rw [decode_of_read hop, (selectTermsMatchDecode _ _).1 hsel, rdInstr]
  · have hw : inWindow .expansionROM a = true := (inWindow_iff _ a).2 ⟨hlo, Nat.lt_succ_of_le hhi⟩
    exact readStore_of_index Config.params (σ := .exp) hw (storeIndex_exp_of_inWindow hw) s

/-- Settles O18: SaveRAM's index is the distance from its base, and a store read looks at no mapper. -/
theorem readSramReturnsStoreByte : Obligations.ReadSramReturnsStoreByte := by
  refine ⟨fun _ => decode_of_rdRow "RD.SRAM" .saveRAM (by decide) (by decide), fun a s hlo hhi => ?_⟩
  have hw : inWindow .saveRAM a = true := (inWindow_iff _ a).2 ⟨hlo, Nat.lt_succ_of_le hhi⟩
  exact readStore_of_index Config.params (σ := .sram) hw (storeIndex_sram_of_inWindow hw) s

/-! ### Device reads -/

section DeviceReads

variable (P : Params) {a : Addr} {s : State} {r : Byte × DState}

/-- A device read by what the device answers to the operand of the address. -/
theorem readDevice_of_answer {δ : DevId} {off : Byte} (hw : inWindow (devRegion δ) a = true)
    (hoff : devOperand δ a = off) (hr : (devModel P δ).readRegister (devState s δ) off = r) :
    readDevice P δ a s =
      if devBound P δ then .next (answer r.1 (withDevice s δ r.2)) else .next (answerOpenBus P s) := by
  rw [readDevice_of_inWindow P hw, callRead, hoff, hr]

theorem readDevice_ppu (hlo : 0x2000 ≤ a.toNat) (hhi : a.toNat ≤ 0x3FFF)
    (hr : P.ppuDev.readRegister s.ppu (BitVec.ofNat 8 ((a.toNat - 0x2000) % 8)) = r) :
    readDevice P .ppu a s =
      if P.ppuBound then .next { s with ppu := r.2, dbLatch := r.1, rdata := some r.1 }
      else .next { s with rdata := some (openBus P s) } := by
  have hw : inWindow .pictureUnitRegisters a = true := (inWindow_iff _ a).2 ⟨hlo, Nat.lt_succ_of_le hhi⟩
  exact readDevice_of_answer P (δ := .ppu) hw (devOperand_ppu hw) hr

theorem readDevice_aio (hlo : 0x4000 ≤ a.toNat) (hhi : a.toNat ≤ 0x401F)
    (hr : P.aioDev.readRegister s.aio (BitVec.ofNat 8 (a.toNat - 0x4000)) = r) :
    readDevice P .aio a s =
      if P.aioBound then .next { s with aio := r.2, dbLatch := r.1, rdata := some r.1 }
      else .next { s with rdata := some (openBus P s) } := by
  have hw : inWindow .audioAndIORegisters a = true := (inWindow_iff _ a).2 ⟨hlo, Nat.lt_succ_of_le hhi⟩
  exact readDevice_of_answer P (δ := .aio) hw (devOperand_aio hw) hr

end DeviceReads

/-- Settles O15: the machine's own read is the one with its parameters, which bind the picture unit. -/
theorem readPpuCallsDevice : Obligations.ReadPpuCallsDevice := by
  refine ⟨fun _ => decode_of_rdRow "RD.PPU" .pictureUnitRegisters (by decide) (by decide),
    fun a s hlo hhi r hr => ?_, fun P a s hlo hhi r hr => readDevice_ppu P hlo hhi hr⟩
  exact (readDevice_ppu Config.params hlo hhi hr).trans (if_pos rfl)

/-- Settles O16: the machine's own read is the one with its parameters, which bind the audio/IO unit. -/
theorem readAioCallsDevice : Obligations.ReadAioCallsDevice := by
  refine ⟨fun _ => decode_of_rdRow "RD.AIO" .audioAndIORegisters (by decide) (by decide),
    fun a s hlo hhi r hr => ?_, fun P a s hlo hhi r hr => readDevice_aio P hlo hhi hr⟩
  exact (readDevice_aio Config.params hlo hhi hr).trans (if_pos rfl)

/-! ### Cartridge reads -/

theorem inWindow_cartridgeSpace {a : Addr} (hlo : 0x8000 ≤ a.toNat) : inWindow .cartridgeSpace a = true :=
  (inWindow_iff _ a).2 ⟨hlo, a.isLt⟩

theorem resolve_eq_ite (P : Params) (c : Cart) (a : Addr) :
    resolve P c a =
      if (callTranslate P c a).sid < c.stor.length ∧
          (callTranslate P c a).off < (P.mapper c.id).size (callTranslate P c a).sid
      then some (callTranslate P c a) else none := by
  simp only [resolve, namesByte, decide_eq_true_eq]

/-- Settles O19: with a mapper bound the read follows `resolve`, whose check is the contract of R183. -/
theorem readCartResolvesThroughMapper : Obligations.ReadCartResolvesThroughMapper := by
  refine ⟨fun _ => decode_of_rdRow "RD.CART" .cartridgeSpace (by decide) (by decide), fun _ _ => rfl,
    fun a s hlo hb => readCart_of_unbound Config.params (inWindow_cartridgeSpace hlo) hb, ?_⟩
  intro P a s hlo t (ht : callTranslate P s.cart a = t)
  have hw := inWindow_cartridgeSpace hlo
  rcases Bool.eq_false_or_eq_true s.mapperBound with hb | hb
  · rw [readCart_of_bound P hw hb, resolve_eq_ite, ht, if_pos hb]
    split <;> rfl
  · rw [readCart_of_unbound P hw hb, if_neg (Bool.eq_false_iff.1 hb)]
    rfl

/-! ### What every read does -/

@[simp] theorem devState_answer (v : Byte) (s : State) (δ : DevId) : devState (answer v s) δ = devState s δ := by
  cases δ <;> rfl

@[simp] theorem devState_answerOpenBus (P : Params) (s : State) (δ : DevId) :
    devState (answerOpenBus P s) δ = devState s δ := by
  cases δ <;> rfl

section Reads

variable {P : Params} {a : Addr} {s t : State}

/-- An unmapped read drives nothing (R139). -/
theorem busRead_of_unmapped (h : unmapped P s a = true) : busRead P a s = .next (answerOpenBus P s) := by
  rcases inWindow_cases a with ⟨σ, hw⟩ | ⟨δ, hw⟩ | hw
  · rw [unmapped_of_store P s hw] at h
    cases h
  · rw [unmapped_of_device P s hw, Bool.not_eq_true'] at h
    rw [busRead_of_device P hw, readDevice_of_inWindow P hw, h]
    rfl
  · rw [unmapped_of_cart P s hw, Bool.not_eq_true'] at h
    rw [busRead_of_cart P hw, readCart_of_unbound P hw h]

/-- Every next state of a read: open bus, a byte of memory, or a byte of the device in whose window the address
lies (R143). -/
theorem busRead_next (ht : busRead P a s = .next t) :
    (unmapped P s a = true ∧ t = answerOpenBus P s) ∨
    (unmapped P s a = false ∧ ∃ v, t = answer v s) ∨
    (unmapped P s a = false ∧ ∃ δ v x, (decodeAddress a).1 = devRegion δ ∧ t = answer v (withDevice s δ x)) := by
  rcases inWindow_cases a with ⟨σ, hw⟩ | ⟨δ, hw⟩ | hw
  · rw [busRead_of_store P hw, readStore_next P hw] at ht
    cases ht
    exact .inr (.inl ⟨unmapped_of_store P s hw, _, rfl⟩)
  · have hu := unmapped_of_device P s hw
    rw [busRead_of_device P hw] at ht
    obtain ⟨-, hb, hr⟩ | ⟨-, hb, hr⟩ | ⟨-, hr⟩ := readDevice_cases ht <;> cases hr <;> rw [hb] at hu
    · exact .inr (.inr ⟨hu, δ, _, _, (decodeAddress_region a _).2 hw, rfl⟩)
    · exact .inl ⟨hu, rfl⟩
  · have hu := unmapped_of_cart P s hw
    rw [busRead_of_cart P hw] at ht
    obtain ⟨x, -, hb, -, hr⟩ | ⟨-, -, -, hr⟩ | ⟨-, hb, hr⟩ | ⟨-, hr⟩ := readCart_cases ht <;> cases hr <;>
      rw [hb] at hu
    · exact .inr (.inl ⟨hu, _, rfl⟩)
    · exact .inl ⟨hu, rfl⟩

/-- Outside its window, or with nothing bound there, a device's state is left by a read. -/
theorem devState_busRead (ht : busRead P a s = .next t) {ε : DevId}
    (h : (decodeAddress a).1 ≠ devRegion ε ∨ unmapped P s a = true) : devState t ε = devState s ε := by
  obtain ⟨-, rfl⟩ | ⟨-, v, rfl⟩ | ⟨hu, δ, v, x, hr, rfl⟩ := busRead_next ht
  · exact devState_answerOpenBus P s ε
  · exact devState_answer v s ε
  · have hne : ε ≠ δ := by
      rintro rfl
      simp [hr, hu] at h
    rw [devState_answer, devState_withDevice, if_neg hne]

end Reads

/-- Settles O26: no answer of a read touches more than the latch, the response and one device's state. -/
theorem readChangesAtMostLatchAndDevice : Obligations.ReadChangesAtMostLatchAndDevice := by
  intro P a s t ht
  have hppu := devState_busRead ht (ε := .ppu)
  have haio := devState_busRead ht (ε := .aio)
  obtain ⟨hu, rfl⟩ | ⟨hu, v, rfl⟩ | ⟨hu, δ, v, x, -, rfl⟩ := busRead_next ht
  · exact ⟨rfl, rfl, rfl, rfl, rfl, rfl, rfl, hppu, haio, openBus P s, rfl, by simp [hu]⟩
  · exact ⟨rfl, rfl, rfl, rfl, rfl, rfl, rfl, hppu, haio, v, rfl, by simp [hu]⟩
  · cases δ <;> exact ⟨rfl, rfl, rfl, rfl, rfl, rfl, rfl, hppu, haio, v, rfl, by simp [hu]⟩

/-- Settles O29: the open-bus byte under each policy. -/
theorem unmappedReadIsOpenBus : Obligations.UnmappedReadIsOpenBus := by
  intro P a s hu
  have hread : busRead P a s = .next { s with rdata := some (openBus P s) } := busRead_of_unmapped hu
  refine ⟨fun hP => ?_, fun hP => ?_⟩
  · rw [hread, openBus, hP]
  · rw [hread, openBus, hP]

end Sys2Proof.Machine

/-! SUPPORT. Proofs about the writes (42_bus_write.md): the words of a write row, what a write answers in the window
of each store, device port and cartridge, and what every write changes and leaves. -/

namespace Sys2Proof

open Machine

/-! ### The words of a write row -/

theorem wrRows_op : ∀ row ∈ wrRows, wordOp row.pattern ≠ 0 := by decide

theorem decode_of_wrRow (name : String) {mask pattern : TWord} (r : Region)
    (hrow : ⟨name, mask, pattern⟩ ∈ wrRows) (hr : (decodeAddress (wordAddr pattern)).1 = r) {w : TWord}
    (hm : w &&& mask = pattern) : decode w = wrInstr r (wordAddr w) (wordData w) := by
  obtain ⟨hop, hregion⟩ := fields_of_rowMatches (List.mem_append_right rdRows hrow) (beq_iff_eq.2 hm)
  rw [decode_of_write (hop ▸ wrRows_op _ hrow), hregion, hr]

end Sys2Proof

namespace Sys2Proof.Machine

/-! ### Store writes -/

/-- A write in a store's window replaces that store's cells by cells that differ in the one byte its address names. -/
theorem writeStore_of_index (P : Params) {σ : StoreId} {a : Addr} {i : Nat}
    (hw : inWindow (storeRegion σ) a = true) (hi : storeIndex σ (windowOffset (storeRegion σ) a) = i)
    (d : Byte) (s : State) :
    ∃ m, writeStore P σ a d s = .next (drive d (withStore s σ m)) ∧
      ∀ j, Memory.read (storeLaunch P σ) m j = if j = i then d else storeByte P s σ j := by
  refine ⟨Memory.write (storeLaunch P σ) (storeCells s σ) i d, ?_, fun j => Memory.read_write _ _ i j d⟩
  rw [writeStore_next P hw, hi, setStoreByte]

/-- Settles O20: SystemRAM's index is the address modulo its period. -/
theorem writeRamSetsStoreByte : Obligations.WriteRamSetsStoreByte := by
  refine ⟨fun _ => decode_of_wrRow "WR.RAM" .systemRAM (by decide) (by decide), fun a d s hhi => ?_⟩
  have hw : inWindow .systemRAM a = true := (inWindow_iff _ a).2 ⟨Nat.zero_le _, Nat.lt_succ_of_le hhi⟩
  exact writeStore_of_index Config.params (σ := .ram) hw (storeIndex_ram_of_inWindow hw) d s

/-- Settles O23: ExpansionROM's index is the distance from its base, and R155's encoding condition is its select
term. -/
theorem writeExpSetsStoreByte : Obligations.WriteExpSetsStoreByte := by
  refine ⟨fun w hop hhigh hlow => ?_, fun a d s hlo hhi => ?_⟩
  · have hsel : selects .expansionROM (wordAddr w) = true := by simpa [selects, hhigh] using hlow
    have hop : wordOp w ≠ 0 := by simp [hop]
    rw [decode_of_write hop, (selectTermsMatchDecode _ _).1 hsel, wrInstr]
  · have hw : inWindow .expansionROM a = true := (inWindow_iff _ a).2 ⟨hlo, Nat.lt_succ_of_le hhi⟩
    exact writeStore_of_index Config.params (σ := .exp) hw (storeIndex_exp_of_inWindow hw) d s

/-- Settles O24: SaveRAM's index is the distance from its base, and a store write looks at no mapper. -/
theorem writeSramSetsStoreByte : Obligations.WriteSramSetsStoreByte := by
  refine ⟨fun _ => decode_of_wrRow "WR.SRAM" .saveRAM (by decide) (by decide), fun a d s hlo hhi => ?_⟩
  have hw : inWindow .saveRAM a = true := (inWindow_iff _ a).2 ⟨hlo, Nat.lt_succ_of_le hhi⟩
  exact writeStore_of_index Config.params (σ := .sram) hw (storeIndex_sram_of_inWindow hw) d s

/-! ### Device writes -/

section DeviceWrites

variable (P : Params) {a : Addr} (d : Byte) (s : State)

/-- A device write by the operand of its address. -/
theorem writeDevice_of_operand {δ : DevId} {off : Byte} (hw : inWindow (devRegion δ) a = true)
    (hoff : devOperand δ a = off) :
    writeDevice P δ a d s =
      if devBound P δ then
        .next (drive d (withDevice s δ ((devModel P δ).writeRegister (devState s δ) off d)))
      else .next (drive d s) := by
  rw [writeDevice_of_inWindow P hw, callWrite, hoff]

theorem writeDevice_ppu (hlo : 0x2000 ≤ a.toNat) (hhi : a.toNat ≤ 0x3FFF) :
    writeDevice P .ppu a d s =
      if P.ppuBound then
        .next { s with ppu := P.ppuDev.writeRegister s.ppu (BitVec.ofNat 8 ((a.toNat - 0x2000) % 8)) d,
                       dbLatch := d, rdata := none }
      else .next { s with dbLatch := d, rdata := none } := by
  have hw : inWindow .pictureUnitRegisters a = true := (inWindow_iff _ a).2 ⟨hlo, Nat.lt_succ_of_le hhi⟩
  exact writeDevice_of_operand P d s (δ := .ppu) hw (devOperand_ppu hw)

theorem writeDevice_aio (hlo : 0x4000 ≤ a.toNat) (hhi : a.toNat ≤ 0x401F) :
    writeDevice P .aio a d s =
      if P.aioBound then
        .next { s with aio := P.aioDev.writeRegister s.aio (BitVec.ofNat 8 (a.toNat - 0x4000)) d,
                       dbLatch := d, rdata := none }
      else .next { s with dbLatch := d, rdata := none } := by
  have hw : inWindow .audioAndIORegisters a = true := (inWindow_iff _ a).2 ⟨hlo, Nat.lt_succ_of_le hhi⟩
  exact writeDevice_of_operand P d s (δ := .aio) hw (devOperand_aio hw)

end DeviceWrites

/-- Settles O21: the machine's own write is the one with its parameters, which bind the picture unit. -/
theorem writePpuCallsDevice : Obligations.WritePpuCallsDevice := by
  refine ⟨fun _ => decode_of_wrRow "WR.PPU" .pictureUnitRegisters (by decide) (by decide),
    fun a d s hlo hhi => ?_, fun P a d s hlo hhi => writeDevice_ppu P d s hlo hhi⟩
  exact (writeDevice_ppu Config.params d s hlo hhi).trans (if_pos rfl)

/-- Settles O22: the machine's own write is the one with its parameters, which bind the audio/IO unit. -/
theorem writeAioCallsDevice : Obligations.WriteAioCallsDevice := by
  refine ⟨fun _ => decode_of_wrRow "WR.AIO" .audioAndIORegisters (by decide) (by decide),
    fun a d s hlo hhi => ?_, fun P a d s hlo hhi => writeDevice_aio P d s hlo hhi⟩
  exact (writeDevice_aio Config.params d s hlo hhi).trans (if_pos rfl)

/-! ### Cartridge writes -/

section CartWrites

variable (P : Params) (c : Cart) (x : Translation) (d : Byte)

@[simp] theorem forward_id (a : Addr) : (forward P c a d).id = c.id := rfl

@[simp] theorem cartByte_forward (a : Addr) (sid o : Nat) :
    cartByte P (forward P c a d) sid o = cartByte P c sid o := rfl

theorem gatedStore_of_writable (hx : x.writable = true) : gatedStore P c x d = setCartByte P c x.sid x.off d :=
  if_pos hx

theorem gatedStore_of_not_writable (hx : x.writable = false) : gatedStore P c x d = c :=
  if_neg (Bool.eq_false_iff.1 hx)

@[simp] theorem gatedStore_id : (gatedStore P c x d).id = c.id := by
  unfold gatedStore
  split <;> rfl

@[simp] theorem gatedStore_m : (gatedStore P c x d).m = c.m := by
  unfold gatedStore
  split <;> rfl

@[simp] theorem gatedStore_stor_length : (gatedStore P c x d).stor.length = c.stor.length := by
  unfold gatedStore
  split
  · exact List.length_set
  · rfl

/-- A storage after the gated store: the byte named, if writable, and every other byte of every storage as before. -/
theorem cartByte_gatedStore (hs : x.sid < c.stor.length) (sid o : Nat) :
    cartByte P (gatedStore P c x d) sid o =
      if x.writable = true ∧ sid = x.sid ∧ o = x.off then d else cartByte P c sid o := by
  rcases Bool.eq_false_or_eq_true x.writable with hx | hx
  · rw [gatedStore_of_writable P c x d hx, cartByte_setCartByte P c hs]
    simp [hx]
  · rw [gatedStore_of_not_writable P c x d hx]
    simp [hx]

/-- A storage's contents do not bear on where an address resolves to. -/
theorem resolve_gatedStore (a : Addr) : resolve P (gatedStore P c x d) a = resolve P c a := by
  rw [resolve_eq_ite, resolve_eq_ite, callTranslate, callTranslate, gatedStore_id, gatedStore_m,
    gatedStore_stor_length]

end CartWrites

/-- Settles O25: with a mapper bound the write follows `resolve` of the forwarded cartridge, whose check is the
contract of R183. -/
theorem writeCartForwardsThenStores : Obligations.WriteCartForwardsThenStores := by
  refine ⟨fun _ => decode_of_wrRow "WR.CART" .cartridgeSpace (by decide) (by decide), fun _ _ _ => rfl,
    fun a d s hlo hb => writeCart_of_unbound Config.params (inWindow_cartridgeSpace hlo) hb d, ?_⟩
  rintro P a d s hlo _ x rfl (hx : callTranslate P (forward P s.cart a d) a = x)
  have hw := inWindow_cartridgeSpace hlo
  rcases Bool.eq_false_or_eq_true s.mapperBound with hb | hb
  · rw [writeCart_of_bound P hw hb, resolve_eq_ite, hx, if_pos hb, apply_ite (Option.elim · _ _)]
    refine if_congr Iff.rfl ?_ rfl
    rcases Bool.eq_false_or_eq_true x.writable with hwr | hwr
    · rw [if_pos hwr, Option.elim_some, gatedStore_of_writable _ _ _ _ hwr]
      rfl
    · rw [if_neg (Bool.eq_false_iff.1 hwr), Option.elim_some, gatedStore_of_not_writable _ _ _ _ hwr]
      rfl
  · rw [writeCart_of_unbound P hw hb, if_neg (Bool.eq_false_iff.1 hb)]
    rfl

/-- Settles O37: the gated store moves no translation, so the read after the write resolves to the byte the
write did. -/
theorem cartWriteThenReadBack : Obligations.CartWriteThenReadBack := by
  intro P a d s x y hw hb hx hy hsid hoff
  obtain ⟨-, hlen, -⟩ := resolve_eq_some.1 hy
  have hread := readCart_of_bound P hw hb
  have hwrite := writeCart_of_bound P hw hb d
  have hback := readCart_of_bound P hw
    (s := drive d { s with cart := gatedStore P (forward P s.cart a d) y d }) hb
  rw [hx, Option.elim_some] at hread
  rw [hy, Option.elim_some] at hwrite
  rw [drive_cart, resolve_gatedStore, hy, Option.elim_some] at hback
  rw [busRead_of_cart P hw, busWrite_of_cart P hw]
  refine ⟨_, _, _, hread, hwrite, hback, ?_⟩
  rw [answer_rdata, answer_rdata, cartByte_gatedStore _ _ _ _ hlen, cartByte_forward, hsid, hoff,
    apply_ite some]
  simp only [and_self, and_true]

/-! ### What every write does -/

@[simp] theorem devState_drive (d : Byte) (s : State) (δ : DevId) : devState (drive d s) δ = devState s δ := by
  cases δ <;> rfl

@[simp] theorem devState_withCart (c : Cart) (s : State) (δ : DevId) :
    devState { s with cart := c } δ = devState s δ := by
  cases δ <;> rfl

theorem devRegion_ne_cartridgeSpace (δ : DevId) : devRegion δ ≠ .cartridgeSpace := by
  cases δ <;> decide

section Writes

variable {P : Params} {a : Addr} {d : Byte} {s t : State}

/-- An unmapped write reaches the latch only (R159, R160). -/
theorem busWrite_of_unmapped (h : unmapped P s a = true) (d : Byte) : busWrite P a d s = .next (drive d s) := by
  rcases inWindow_cases a with ⟨σ, hw⟩ | ⟨δ, hw⟩ | hw
  · rw [unmapped_of_store P s hw] at h
    cases h
  · rw [unmapped_of_device P s hw, Bool.not_eq_true'] at h
    rw [busWrite_of_device P hw, writeDevice_of_inWindow P hw, h]
    rfl
  · rw [unmapped_of_cart P s hw, Bool.not_eq_true'] at h
    rw [busWrite_of_cart P hw, writeCart_of_unbound P hw h]

/-- Every next state of a write: the byte is driven, and before that nothing is changed, or a byte of a store is set,
a device's state replaced, or the cartridge forwarded to and stored in through the gate (R162). -/
theorem busWrite_next (ht : busWrite P a d s = .next t) :
    ∃ u, t = drive d u ∧
      ((unmapped P s a = true ∧ u = s) ∨
       (∃ σ i, (decodeAddress a).1 = storeRegion σ ∧ u = setStoreByte P s σ i d) ∨
       (unmapped P s a = false ∧ ∃ δ x, (decodeAddress a).1 = devRegion δ ∧ u = withDevice s δ x) ∨
       ((decodeAddress a).1 = .cartridgeSpace ∧ s.mapperBound = true ∧
         ∃ y, resolve P (forward P s.cart a d) a = some y ∧
           u = { s with cart := gatedStore P (forward P s.cart a d) y d })) := by
  rcases inWindow_cases a with ⟨σ, hw⟩ | ⟨δ, hw⟩ | hw <;> have hr := (decodeAddress_region a _).2 hw
  · rw [busWrite_of_store P hw, writeStore_next P hw] at ht
    cases ht
    exact ⟨_, rfl, .inr (.inl ⟨σ, _, hr, rfl⟩)⟩
  · have hu := unmapped_of_device P s hw
    rw [busWrite_of_device P hw] at ht
    obtain ⟨-, hb, ht⟩ | ⟨-, hb, ht⟩ | ⟨-, ht⟩ := writeDevice_cases ht <;> cases ht <;> rw [hb] at hu
    · exact ⟨_, rfl, .inr (.inr (.inl ⟨hu, δ, _, hr, rfl⟩))⟩
    · exact ⟨s, rfl, .inl ⟨hu, rfl⟩⟩
  · rw [busWrite_of_cart P hw] at ht
    obtain ⟨y, -, hb, hy, ht⟩ | ⟨-, -, -, ht⟩ | ⟨-, hb, ht⟩ | ⟨-, ht⟩ := writeCart_cases ht <;> cases ht
    · exact ⟨_, rfl, .inr (.inr (.inr ⟨hr, hb, y, hy, rfl⟩))⟩
    · exact ⟨s, rfl, .inl ⟨by simp [unmapped_of_cart P s hw, hb], rfl⟩⟩

/-- Outside its window, or with nothing bound there, a device's state is left by a write. -/
theorem devState_busWrite (ht : busWrite P a d s = .next t) {ε : DevId}
    (h : (decodeAddress a).1 ≠ devRegion ε ∨ unmapped P s a = true) : devState t ε = devState s ε := by
  obtain ⟨u, rfl, ⟨-, rfl⟩ | ⟨σ, i, -, rfl⟩ | ⟨hu, δ, x, hr, rfl⟩ | ⟨-, -, y, -, rfl⟩⟩ := busWrite_next ht <;>
    rw [devState_drive]
  · exact devState_withStore s σ _ ε
  · have hne : ε ≠ δ := by
      rintro rfl
      simp [hr, hu] at h
    rw [devState_withDevice, if_neg hne]
  · exact devState_withCart _ s ε

/-- What a write does to the cartridge: nothing outside CartridgeSpace or with no mapper bound, else the forward and
the gated store. -/
theorem cart_busWrite (ht : busWrite P a d s = .next t) :
    (((decodeAddress a).1 ≠ .cartridgeSpace ∨ s.mapperBound = false) ∧ t.cart = s.cart) ∨
    ((decodeAddress a).1 = .cartridgeSpace ∧ s.mapperBound = true ∧
      ∃ y, resolve P (forward P s.cart a d) a = some y ∧ t.cart = gatedStore P (forward P s.cart a d) y d) := by
  obtain ⟨u, rfl, ⟨hu, rfl⟩ | ⟨σ, i, hr, rfl⟩ | ⟨-, δ, x, hr, rfl⟩ | ⟨hr, hb, y, hy, rfl⟩⟩ := busWrite_next ht
  · refine .inl ⟨?_, rfl⟩
    by_contra! hcart
    obtain ⟨hr, hb⟩ := hcart
    exact hb (by simpa [unmapped_of_cart P _ ((decodeAddress_region a _).1 hr)] using hu)
  · exact .inl ⟨.inl (hr ▸ (cartridgeSpace_ne_storeRegion σ).symm), withStore_cart s σ _⟩
  · exact .inl ⟨.inl (hr ▸ devRegion_ne_cartridgeSpace δ), withDevice_cart s δ x⟩
  · exact .inr ⟨hr, hb, y, hy, rfl⟩

theorem cart_busWrite_of_unmapped (ht : busWrite P a d s = .next t)
    (h : (decodeAddress a).1 ≠ .cartridgeSpace ∨ unmapped P s a = true) : t.cart = s.cart := by
  obtain ⟨-, hc⟩ | ⟨hr, hb, -⟩ := cart_busWrite ht
  · exact hc
  · simp [hr, hb, unmapped_of_cart P s ((decodeAddress_region a _).1 hr)] at h

/-- No write binds another mapper. -/
theorem cart_id_busWrite (ht : busWrite P a d s = .next t) : t.cart.id = s.cart.id := by
  obtain ⟨-, hc⟩ | ⟨-, -, y, -, hc⟩ := cart_busWrite ht
  · rw [hc]
  · rw [hc, gatedStore_id, forward_id]

/-- A write changes at most the byte the translation after the forward names, and that one only if it is writable. -/
theorem cartByte_busWrite (ht : busWrite P a d s = .next t) (sid o : Nat) :
    cartByte P t.cart sid o =
      if (decodeAddress a).1 = .cartridgeSpace ∧ s.mapperBound = true ∧
          (callTranslate P (forward P s.cart a d) a).writable = true ∧
          sid = (callTranslate P (forward P s.cart a d) a).sid ∧
          o = (callTranslate P (forward P s.cart a d) a).off then d
      else cartByte P s.cart sid o := by
  obtain ⟨hne, hc⟩ | ⟨hr, hb, y, hy, hc⟩ := cart_busWrite ht
  · rw [hc, if_neg]
    rintro ⟨hr, hb, -⟩
    simp [hr, hb] at hne
  · obtain ⟨hx, hlen, -⟩ := resolve_eq_some.1 hy
    rw [hc, cartByte_gatedStore _ _ _ _ hlen, cartByte_forward, hx]
    simp only [hr, hb, true_and]

theorem mapperBound_busWrite (ht : busWrite P a d s = .next t) : t.mapperBound = s.mapperBound := by
  obtain ⟨u, rfl, ⟨-, rfl⟩ | ⟨σ, i, -, rfl⟩ | ⟨-, δ, x, -, rfl⟩ | ⟨-, -, y, -, rfl⟩⟩ := busWrite_next ht
  · rfl
  · exact withStore_mapperBound s σ _
  · exact withDevice_mapperBound s δ x
  · rfl

end Writes

/-- Settles O27, one lemma for each part of the state. -/
theorem writeChangesOnlyItsTarget : Obligations.WriteChangesOnlyItsTarget := by
  intro P a d s t ht
  obtain ⟨hphase, hinbox⟩ := busOp_session (busOp_busWrite P a d) ht
  obtain ⟨hlatch, hrdata⟩ : t.dbLatch = d ∧ t.rdata = none := by
    obtain ⟨u, rfl, -⟩ := busWrite_next ht
    exact ⟨rfl, rfl⟩
  exact ⟨hlatch, hrdata, mapperBound_busWrite ht, hphase, hinbox, storeByte_busWrite ht,
    devState_busWrite ht (ε := .ppu), devState_busWrite ht (ε := .aio), cart_busWrite_of_unmapped ht,
    cart_id_busWrite ht, cartByte_busWrite ht⟩

/-- Settles O30: a write that reaches nothing ends by driving its byte. -/
theorem unmappedWriteIsDiscarded : Obligations.UnmappedWriteIsDiscarded :=
  fun _ _ d _ hu => busWrite_of_unmapped hu d

end Sys2Proof.Machine

/-! SUPPORT. Proofs about the stores (43_mirrored_register.md): an instruction outside its window stops, and the laws of
a store's `ReadAt` and `WriteAt`. -/

namespace Sys2Proof.Machine

/-! ### Device and cartridge accesses outside their window (60_exceptions.md R223)

Of the stores, `readStore_fault` and `writeStore_fault` say it. -/

section OutsideWindow

variable (P : Params) {a : Addr}

theorem readDevice_fault {δ : DevId} (hw : inWindow (devRegion δ) a = false) (s : State) :
    readDevice P δ a s = .fault .decoderInconsistency := by
  simp [readDevice, hw]

theorem writeDevice_fault {δ : DevId} (hw : inWindow (devRegion δ) a = false) (d : Byte) (s : State) :
    writeDevice P δ a d s = .fault .decoderInconsistency := by
  simp [writeDevice, hw]

theorem readCart_fault (hw : inWindow .cartridgeSpace a = false) (s : State) :
    readCart P a s = .fault .decoderInconsistency := by
  simp [readCart, hw]

theorem writeCart_fault (hw : inWindow .cartridgeSpace a = false) (d : Byte) (s : State) :
    writeCart P a d s = .fault .decoderInconsistency := by
  simp [writeCart, hw]

end OutsideWindow

/-- Settles O31: an ill-formed instruction's address is outside the window of what the instruction runs on, and each
operation stops there. -/
theorem outOfWindowInstructionsStop : Obligations.OutOfWindowInstructionsStop := by
  intro i s hwf
  cases i with
  | rdRam a => exact readStore_fault Config.params (σ := .ram) hwf s
  | rdPpu a => exact readDevice_fault Config.params (δ := .ppu) hwf s
  | rdAio a => exact readDevice_fault Config.params (δ := .aio) hwf s
  | rdExp a => exact readStore_fault Config.params (σ := .exp) hwf s
  | rdSram a => exact readStore_fault Config.params (σ := .sram) hwf s
  | rdCart a => exact readCart_fault Config.params hwf s
  | wrRam a d => exact writeStore_fault Config.params (σ := .ram) hwf d s
  | wrPpu a d => exact writeDevice_fault Config.params (δ := .ppu) hwf d s
  | wrAio a d => exact writeDevice_fault Config.params (δ := .aio) hwf d s
  | wrExp a d => exact writeStore_fault Config.params (σ := .exp) hwf d s
  | wrSram a d => exact writeStore_fault Config.params (σ := .sram) hwf d s
  | wrCart a d => exact writeCart_fault Config.params hwf d s

/-! ### The laws of a store (R172, R173, R176) -/

section StoreLaws

variable {P : Params} {s t : State} {σ : StoreId} {x y : Addr}

theorem readAt_of_lt (hx : x.toNat < regionSize (storeRegion σ)) :
    readAt P s σ x = some (storeByte P s σ (storeIndex σ x)) :=
  if_pos (decide_eq_true hx)

theorem writeAt_of_lt (hx : x.toNat < regionSize (storeRegion σ)) (v : Byte) :
    writeAt P s σ x v = some (setStoreByte P s σ (storeIndex σ x) v) :=
  if_pos (decide_eq_true hx)

/-- Reading after a write: the byte written at an equal index, and what was read before at another (R176). -/
theorem readAt_of_writeAt {v : Byte} (hx : x.toNat < regionSize (storeRegion σ))
    (ht : writeAt P s σ x v = some t) (hy : y.toNat < regionSize (storeRegion σ)) :
    readAt P t σ y = if storeIndex σ x = storeIndex σ y then some v else readAt P s σ y := by
  rw [writeAt_of_lt hx, Option.some_inj] at ht
  rw [← ht, readAt_of_lt hy, readAt_of_lt hy, storeByte_setStoreByte, apply_ite some]
  simp only [true_and, eq_comm]

end StoreLaws

/-- Settles O33: reading after the second write is reading after the first wherever the second does not answer, and at
an equal index it answers exactly where the first would. -/
theorem storeReadWriteLaws : Obligations.StoreReadWriteLaws := by
  intro P s σ x v hx
  have ht := writeAt_of_lt (P := P) (s := s) hx v
  refine ⟨_, ht, fun y hy => readAt_of_writeAt hx ht hy, fun y v' hy hxy => ?_⟩
  have hu := writeAt_of_lt (P := P) (s := setStoreByte P s σ (storeIndex σ x) v) hy v'
  refine ⟨_, hu, fun z hz => ?_⟩
  rw [readAt_of_writeAt hy hu hz, readAt_of_writeAt hx ht hz, ← hxy]
  split <;> rfl

end Sys2Proof.Machine

/-! SUPPORT. Proofs about the mapper (44_mapper_capability.md): a mapper that keeps its contract resolves every access
the block makes of it, and no step brings a bound mapper to a state it cannot reach. -/

namespace Sys2Proof.Machine

section RunInv

variable {P : Params} {a : Addr} {s t : State}

/-! ### A mapper that keeps its contract resolves every access (R183) -/

/-- A well-shaped cartridge holds as many storages as its mapper has (log 14), so what the contract promises is what
`resolve` checks. -/
theorem resolve_of_keepsContract {c : Cart} (hk : keepsContract (P.mapper c.id)) (hc : cartWf P c)
    (hm : MapperReach (P.mapper c.id) c.m) (hw : inWindow .cartridgeSpace a = true) :
    resolve P c a = some (callTranslate P c a) := by
  obtain ⟨hlen, -⟩ := hc
  obtain ⟨hsid, hoff⟩ := hk c.m hm a hw
  exact resolve_eq_some.2 ⟨rfl, hlen ▸ hsid, hoff⟩

/-- A write resolves on the mapper state the forward left, which is again one the mapper can reach (R184, R185). -/
theorem mapperReach_forward {c : Cart} (hm : MapperReach (P.mapper c.id) c.m)
    (hw : inWindow .cartridgeSpace a = true) (d : Byte) :
    MapperReach (P.mapper (forward P c a d).id) (forward P c a d).m :=
  .observed c.m a d hm hw

/-- Every operation completes in its window: only a bound mapper could fault it, and none does. -/
theorem busOp_completes {f : State → Result} (hf : BusOp P a f) (hk : ∀ id, keepsContract (P.mapper id))
    (h : runInv P s) : ∃ t, f s = .next t := by
  obtain ⟨⟨-, hcart⟩, hreach⟩ := h
  cases hf with
  | readStore σ hw => exact ⟨_, readStore_next P hw s⟩
  | readDevice δ hw =>
    rw [readDevice_of_inWindow P hw]
    split <;> exact ⟨_, rfl⟩
  | readCart hw =>
    rcases Bool.eq_false_or_eq_true s.mapperBound with hb | hb
    · rw [readCart_of_bound P hw hb, resolve_of_keepsContract (hk _) (hcart hb) (hreach hb) hw]
      exact ⟨_, rfl⟩
    · exact ⟨_, readCart_of_unbound P hw hb⟩
  | writeStore σ d hw => exact ⟨_, writeStore_next P hw d s⟩
  | writeDevice δ d hw =>
    rw [writeDevice_of_inWindow P hw]
    split <;> exact ⟨_, rfl⟩
  | writeCart d hw =>
    rcases Bool.eq_false_or_eq_true s.mapperBound with hb | hb
    · rw [writeCart_of_bound P hw hb, resolve_of_keepsContract (hk _) (cartWf_forward (hcart hb) a d)
        (mapperReach_forward (hreach hb) hw d) hw]
      exact ⟨_, rfl⟩
    · exact ⟨_, writeCart_of_unbound P hw hb d⟩

/-- Taking an event never faults, and the transaction taken completes. -/
theorem noFault_busStep (hk : ∀ id, keepsContract (P.mapper id)) (h : runInv P s) : noFault (busStep P s) := by
  intro x hx
  cases hf : fetch P s with
  | transaction w u =>
    obtain ⟨-, rest, -, rfl⟩ := fetch_transaction hf
    obtain ⟨t, ht⟩ := busOp_completes (s := { s with inbox := rest }) (busOp_busTransaction P w) hk h
    rw [busStep_of_fetch_transaction hf, ht] at hx
    cases hx
  | done r =>
    rw [busStep_of_fetch_done hf] at hx
    subst hx
    exact fetch_no_fault hf

/-! ### Every step keeps a bound mapper in a state it can reach -/

/-- A bound mapper's state is one it can reach: the part of `runInv` that is not memory. -/
def mapperReached (P : Params) (s : State) : Prop :=
  s.mapperBound = true → MapperReach (P.mapper s.cart.id) s.cart.m

theorem runInv_iff : runInv P s ↔ memoryWf P s ∧ mapperReached P s := Iff.rfl

/-- No read touches the mapper (R182). -/
theorem mapperReached_busRead (h : mapperReached P s) (ht : busRead P a s = .next t) : mapperReached P t := by
  obtain ⟨-, -, -, hc, hb, -⟩ := readChangesAtMostLatchAndDevice P a s t ht
  unfold mapperReached
  rwa [hb, hc]

/-- A write in CartridgeSpace is one the mapper observes, and no other reaches it (R184). -/
theorem mapperReached_busWrite {d : Byte} (h : mapperReached P s) (ht : busWrite P a d s = .next t) :
    mapperReached P t := by
  unfold mapperReached
  rw [mapperBound_busWrite ht]
  obtain ⟨-, hc⟩ | ⟨hr, hb, y, -, hc⟩ := cart_busWrite ht <;> rw [hc]
  · exact h
  · rw [gatedStore_id, gatedStore_m]
    exact fun _ => mapperReach_forward (h hb) ((decodeAddress_region a _).1 hr) d

theorem mapperReached_busTransaction {w : TWord} (h : mapperReached P s) (ht : busTransaction P w s = .next t) :
    mapperReached P t := by
  unfold busTransaction at ht
  split at ht
  · exact mapperReached_busRead h ht
  · exact mapperReached_busWrite h ht

/-- A mapper that `CONSTRUCT` or `LOAD_CARTRIDGE` binds is in its first state; the other steps that run no transaction
leave the binding. -/
theorem mapperReached_of_fetch_next (h : mapperReached P s) (hf : fetch P s = .done (.next t)) :
    mapperReached P t := by
  obtain ⟨-, -, rfl⟩ | ⟨mp, rest, -, -, rfl⟩ | ⟨mp, rest, -, -, rfl⟩ | ⟨x, y, rest, -, -, -, rfl⟩ |
    ⟨rest, -, -, rfl⟩ := fetch_next hf
  · exact h
  · exact (runInv_iff.1 (launchMeetsRunInvariant P mp)).2
  · exact fun _ => .bound
  · exact h
  · exact h

theorem mapperReached_busStep (h : mapperReached P s) (ht : busStep P s = .next t) : mapperReached P t := by
  cases hf : fetch P s with
  | transaction w u =>
    rw [busStep_of_fetch_transaction hf] at ht
    obtain ⟨-, rest, -, rfl⟩ := fetch_transaction hf
    exact mapperReached_busTransaction (s := { s with inbox := rest }) h ht
  | done r =>
    rw [busStep_of_fetch_done hf] at ht
    subst ht
    exact mapperReached_of_fetch_next h hf

theorem runInv_busStep (h : runInv P s) (ht : busStep P s = .next t) : runInv P t := by
  rw [runInv_iff] at h ⊢
  obtain ⟨hmem, hreach⟩ := h
  exact ⟨memoryWf_busStep hmem ht, mapperReached_busStep hreach ht⟩

end RunInv

/-- Settles O53: the contract is needed for the first part only; the invariant is kept whatever the mappers do. -/
theorem noFaultUnderMapperContract : Obligations.NoFaultUnderMapperContract :=
  fun _ hk _ h => ⟨noFault_busStep hk h, fun _ => runInv_busStep h⟩

end Sys2Proof.Machine

/-! SUPPORT. Proofs about the devices (45_device_capability.md): a device's state is carried through every operation
but the ones on its own port. -/

namespace Sys2Proof.Machine

/-! ### Replacing a device's state commutes with the updates of a transaction -/

section WithDevice

variable (P : Params) (s : State) (ε : DevId) (x : DState)

@[simp] theorem answer_withDevice (v : Byte) :
    answer v (withDevice s ε x) = withDevice (answer v s) ε x := by
  cases ε <;> rfl

@[simp] theorem answerOpenBus_withDevice :
    answerOpenBus P (withDevice s ε x) = withDevice (answerOpenBus P s) ε x := by
  cases ε <;> rfl

@[simp] theorem drive_withDevice (d : Byte) : drive d (withDevice s ε x) = withDevice (drive d s) ε x := by
  cases ε <;> rfl

@[simp] theorem setStoreByte_withDevice (σ : StoreId) (i : Nat) (v : Byte) :
    setStoreByte P (withDevice s ε x) σ i v = withDevice (setStoreByte P s σ i v) ε x := by
  cases σ <;> cases ε <;> rfl

/-- The cartridge and the devices are fields apart. -/
theorem withCart_withDevice (c : Cart) :
    { withDevice s ε x with cart := c } = withDevice { s with cart := c } ε x := by
  cases ε <;> rfl

variable {ε} {δ : DevId}

/-- The two ports are fields apart. -/
theorem withDevice_comm (hne : δ ≠ ε) (y : DState) :
    withDevice (withDevice s ε x) δ y = withDevice (withDevice s δ y) ε x := by
  cases δ <;> cases ε
  case ppu.aio | aio.ppu => rfl
  all_goals exact absurd rfl hne

/-- A call reaches the device behind its own port only. -/
theorem callRead_withDevice (hne : δ ≠ ε) (off : Byte) :
    callRead P (withDevice s ε x) δ off = callRead P s δ off := by
  rw [callRead, callRead, devState_withDevice, if_neg hne]

theorem callWrite_withDevice (hne : δ ≠ ε) (off v : Byte) :
    callWrite P (withDevice s ε x) δ off v = callWrite P s δ off v := by
  rw [callWrite, callWrite, devState_withDevice, if_neg hne]

end WithDevice

/-! ### A transaction outside a device's window neither reads nor changes the device (R199) -/

section Isolation

variable {P : Params} {a : Addr} {ε : DevId}

/-- The device behind a window is another than one whose window does not hold the address. -/
theorem devId_ne_of_inWindow {δ : DevId} (hw : inWindow (devRegion δ) a = true)
    (hε : (decodeAddress a).1 ≠ devRegion ε) : δ ≠ ε := by
  rintro rfl
  exact hε ((decodeAddress_region a _).2 hw)

theorem busOp_withDevice {f : State → Result} (hf : BusOp P a f) (hε : (decodeAddress a).1 ≠ devRegion ε)
    (s : State) (x : DState) :
    f (withDevice s ε x) = mapNext (fun t => withDevice t ε x) (f s) := by
  have hbound : (withDevice s ε x).mapperBound = s.mapperBound := withDevice_mapperBound s ε x
  cases hf with
  | readStore σ hw =>
    rw [readStore_next P hw, readStore_next P hw, storeByte_withDevice, answer_withDevice, mapNext]
  | readDevice δ hw =>
    have hne := devId_ne_of_inWindow hw hε
    rw [readDevice_of_inWindow P hw, readDevice_of_inWindow P hw, callRead_withDevice P s x hne,
      withDevice_comm s x hne]
    simp only [answer_withDevice, answerOpenBus_withDevice]
    cases devBound P δ <;> rfl
  | readCart hw =>
    rcases Bool.eq_false_or_eq_true s.mapperBound with hb | hb
    · rw [readCart_of_bound P hw hb, readCart_of_bound P hw (hbound.trans hb), withDevice_cart]
      simp only [answer_withDevice]
      cases resolve P s.cart a <;> rfl
    · rw [readCart_of_unbound P hw hb, readCart_of_unbound P hw (hbound.trans hb), answerOpenBus_withDevice,
        mapNext]
  | writeStore σ d hw =>
    rw [writeStore_next P hw, writeStore_next P hw, setStoreByte_withDevice, drive_withDevice, mapNext]
  | writeDevice δ d hw =>
    have hne := devId_ne_of_inWindow hw hε
    rw [writeDevice_of_inWindow P hw, writeDevice_of_inWindow P hw, callWrite_withDevice P s x hne,
      withDevice_comm s x hne]
    simp only [drive_withDevice]
    cases devBound P δ <;> rfl
  | writeCart d hw =>
    rcases Bool.eq_false_or_eq_true s.mapperBound with hb | hb
    · rw [writeCart_of_bound P hw hb, writeCart_of_bound P hw (hbound.trans hb), withDevice_cart]
      simp only [withCart_withDevice, drive_withDevice]
      cases resolve P (forward P s.cart a d) a <;> rfl
    · rw [writeCart_of_unbound P hw hb, writeCart_of_unbound P hw (hbound.trans hb), drive_withDevice, mapNext]

end Isolation

/-- Settles O56: a transaction is one operation, and outside a device's window it is on something else. -/
theorem devicesAreIsolated : Obligations.DevicesAreIsolated := fun P w s x =>
  ⟨fun h => busOp_withDevice (ε := .ppu) (busOp_busTransaction P w) h s x,
    fun h => busOp_withDevice (ε := .aio) (busOp_busTransaction P w) h s x⟩

end Sys2Proof.Machine

/-! SUPPORT. Proofs about the host operations (46_host_operations.md): what a step makes of each of them, and that no
step unbinds a mapper. -/

namespace Sys2Proof.Machine

/-! ### The steps of a live block that run no transaction, and the end of the session -/

section HostSteps

variable (P : Params) {s : State} {rest : List Event}

/-- What a live block takes that is no transaction is the answer of the whole step. -/
theorem busStep_of_takeLive_done {e : Event} {r : Result} (hp : s.phase = .live) (hi : s.inbox = e :: rest)
    (h : takeLive P e { s with inbox := rest } = .done r) : busStep P s = r :=
  busStep_of_fetch_done ((fetch_of_live_cons hp hi).trans h)

theorem busStep_of_loadCartridge {mp : CartId} (hp : s.phase = .live) (hi : s.inbox = .loadCartridge mp :: rest) :
    busStep P s = .next (loadCartridge P mp { s with inbox := rest }) :=
  busStep_of_takeLive_done P hp hi rfl

theorem busStep_of_envStep {x y : DState} (hp : s.phase = .live) (hi : s.inbox = .envStep x y :: rest) :
    busStep P s =
      if envAllows P s x y then .next (envStep x y { s with inbox := rest }) else .refused .envNotAllowed :=
  busStep_of_takeLive_done P hp hi (apply_ite Fetched.done _ _ _).symm

theorem busStep_of_teardown (hp : s.phase = .live) (hi : s.inbox = .teardown :: rest) :
    busStep P s = .next (teardown { s with inbox := rest }) :=
  busStep_of_takeLive_done P hp hi rfl

/-- Once the session has ended nothing is taken, whatever is waiting. -/
theorem fetch_of_tornDown (hp : s.phase = .tornDown) : fetch P s = .done (.refused .afterTeardown) := by
  simp only [fetch, hp]

end HostSteps

/-! ### The cartridge a mapper is bound with -/

theorem freshCart_stor_length (P : Params) (mp : CartId) :
    (freshCart P mp).stor.length = (P.mapper mp).storages :=
  List.length_replicate

theorem freshCart_stor_getD (P : Params) (mp : CartId) (sid : Nat) : (freshCart P mp).stor.getD sid [] = [] := by
  rw [List.getD_eq_getElem?_getD]
  exact List.getElem?_getD_replicate_default_eq _ _ _

theorem cartByte_freshCart (P : Params) (mp : CartId) (sid o : Nat) :
    cartByte P (freshCart P mp) sid o = (P.mapper mp).stor0 sid o := by
  rw [cartByte, freshCart_stor_getD, Memory.read_nil]
  rfl

/-- Settles O41: the cartridge bound is the fresh one. -/
theorem loadReplacesCartridgeOnly : Obligations.LoadReplacesCartridgeOnly := fun P _ mp _ hp hi =>
  ⟨freshCart P mp, busStep_of_loadCartridge P hp hi, rfl, rfl, freshCart_stor_length P mp, cartByte_freshCart P mp⟩

theorem envAllows_iff (P : Params) (s : State) (x y : DState) :
    envAllows P s x y = true ↔ P.ppuDev.env s.ppu x = true ∧ P.aioDev.env s.aio y = true :=
  Bool.and_eq_true_iff

/-- Settles O42: the choice is allowed when each device's `Env` allows its part. -/
theorem envStepChangesDevicesOnly : Obligations.EnvStepChangesDevicesOnly := by
  intro P s x y rest hp hi
  rw [busStep_of_envStep P hp hi]
  exact if_congr (envAllows_iff P s x y) rfl rfl

/-- Settles O43: `TEARDOWN` is taken like every event of a live block, and after it nothing is. -/
theorem teardownIsTerminal : Obligations.TeardownIsTerminal := fun P _ =>
  ⟨fun _ hp hi => busStep_of_teardown P hp hi, fun hp => busStep_of_fetch_done (fetch_of_tornDown P hp)⟩

/-! ### No step of a live block unbinds a mapper -/

section MapperBound

variable {P : Params} {s t : State}

theorem mapperBound_busRead {a : Addr} (ht : busRead P a s = .next t) : t.mapperBound = s.mapperBound := by
  obtain ⟨-, rfl⟩ | ⟨-, v, rfl⟩ | ⟨-, δ, v, x, -, rfl⟩ := busRead_next ht
  · rfl
  · rfl
  · exact withDevice_mapperBound s δ x

theorem mapperBound_busTransaction {w : TWord} (ht : busTransaction P w s = .next t) :
    t.mapperBound = s.mapperBound := by
  unfold busTransaction at ht
  split at ht
  · exact mapperBound_busRead ht
  · exact mapperBound_busWrite ht

/-- Of the steps that run no transaction only `CONSTRUCT` could leave a bound mapper unbound, and a live block takes
none. -/
theorem mapperBound_of_fetch_next (hp : s.phase = .live) (hb : s.mapperBound = true)
    (hf : fetch P s = .done (.next t)) : t.mapperBound = true := by
  obtain ⟨-, -, rfl⟩ | ⟨mp, rest, hbefore, -, -⟩ | ⟨mp, rest, -, -, rfl⟩ | ⟨x, y, rest, -, -, -, rfl⟩ |
    ⟨rest, -, -, rfl⟩ := fetch_next hf
  · exact hb
  · simp [hp] at hbefore
  · rfl
  · exact hb
  · exact hb

theorem mapperBound_busStep (hp : s.phase = .live) (hb : s.mapperBound = true) (ht : busStep P s = .next t) :
    t.mapperBound = true := by
  cases hf : fetch P s with
  | transaction w u =>
    rw [busStep_of_fetch_transaction hf] at ht
    obtain ⟨-, rest, -, rfl⟩ := fetch_transaction hf
    exact (mapperBound_busTransaction ht).trans hb
  | done r =>
    rw [busStep_of_fetch_done hf] at ht
    subst ht
    exact mapperBound_of_fetch_next hp hb hf

end MapperBound

/-- Settles O45: the machine's step is the block's, and no step of a live block unbinds a mapper. -/
theorem mapperStaysBound : Obligations.MapperStaysBound := by
  intro s t hp hb ht
  rw [step_eq_busStep] at ht
  exact mapperBound_busStep hp hb ht

end Sys2Proof.Machine

/-! SUPPORT. Proofs about exceptions (60_exceptions.md): a transaction completes, unless it reaches a bound mapper that
names no byte, and that is the one way a step faults. -/

namespace Sys2Proof.Machine

/-- Every answer of an operation in its window: a next state, or the contract fault of a bound mapper. -/
theorem busOp_answers {P : Params} {a : Addr} {f : State → Result} (hf : BusOp P a f) (s : State) :
    (∃ t, f s = .next t) ∨
      f s = .fault .mapperContract ∧ s.mapperBound = true ∧ (decodeAddress a).1 = .cartridgeSpace := by
  cases hf with
  | readStore σ hw => exact .inl ⟨_, readStore_next P hw s⟩
  | readDevice δ hw =>
    rw [readDevice_of_inWindow P hw]
    split <;> exact .inl ⟨_, rfl⟩
  | readCart hw =>
    have hr := (decodeAddress_region a _).2 hw
    rcases Bool.eq_false_or_eq_true s.mapperBound with hb | hb
    · rw [readCart_of_bound P hw hb]
      cases resolve P s.cart a with
      | none => exact .inr ⟨rfl, hb, hr⟩
      | some x => exact .inl ⟨_, rfl⟩
    · exact .inl ⟨_, readCart_of_unbound P hw hb⟩
  | writeStore σ d hw => exact .inl ⟨_, writeStore_next P hw d s⟩
  | writeDevice δ d hw =>
    rw [writeDevice_of_inWindow P hw]
    split <;> exact .inl ⟨_, rfl⟩
  | writeCart d hw =>
    have hr := (decodeAddress_region a _).2 hw
    rcases Bool.eq_false_or_eq_true s.mapperBound with hb | hb
    · rw [writeCart_of_bound P hw hb]
      cases resolve P (forward P s.cart a d) a with
      | none => exact .inr ⟨rfl, hb, hr⟩
      | some x => exact .inl ⟨_, rfl⟩
    · exact .inl ⟨_, writeCart_of_unbound P hw hb d⟩

/-- Running a well-formed instruction is the transaction of its canonical word. -/
theorem exec_of_wf {i : Instr} (hwf : i.wf = true) (s : State) :
    exec i s = busTransaction Config.params (encode i) s := by
  rw [← exec_decode, decodeOfEncode i hwf]

/-- The canonical word of a well-formed instruction is decoded to the region its mnemonic names. -/
theorem decodeAddress_encode {i : Instr} (hwf : i.wf = true) :
    (decodeAddress (wordAddr (encode i))).1 = i.region := by
  rw [← decode_region, decodeOfEncode i hwf]

/-- Settles O32: a well-formed instruction is a transaction, and what could fault it needs both a bound mapper and an
address in CartridgeSpace. -/
theorem transactionsComplete : Obligations.TransactionsComplete := by
  intro i s hwf hsafe
  rw [exec_of_wf hwf]
  refine (busOp_answers (busOp_busTransaction Config.params (encode i)) s).resolve_right ?_
  rintro ⟨-, hb, hr⟩
  rw [decodeAddress_encode hwf] at hr
  simp [hr, hb] at hsafe

/-- Settles O49: taking an event never faults, so the fault is of the transaction taken. -/
theorem onlyMapperContractFaults : Obligations.OnlyMapperContractFaults := by
  intro P s x hx
  cases hf : fetch P s with
  | transaction w u =>
    rw [busStep_of_fetch_transaction hf] at hx
    obtain ⟨-, rest, hi, rfl⟩ := fetch_transaction hf
    obtain ⟨t, ht⟩ | ⟨hfault, hb, hr⟩ := busOp_answers (busOp_busTransaction P w) { s with inbox := rest }
    · rw [ht] at hx
      cases hx
    · rw [hfault] at hx
      cases hx
      exact ⟨rfl, hb, w, rest, hi, hr⟩
  | done r =>
    rw [busStep_of_fetch_done hf] at hx
    subst hx
    exact absurd hf fetch_no_fault

end Sys2Proof.Machine

/-! SUPPORT. Proofs about reset (70_reset_and_hazards.md): what a block not yet constructed makes of an event, and the
state `CONSTRUCT` leaves. -/

namespace Sys2Proof.Machine

section Construct

variable (P : Params) {s : State} {e : Event} {rest : List Event}

theorem fetch_of_beforeConstruct_cons (hp : s.phase = .beforeConstruct) (hi : s.inbox = e :: rest) :
    fetch P s = takeBefore P e { s with inbox := rest } := by
  simp only [fetch, hp, hi]

theorem busStep_of_takeBefore_done {r : Result} (hp : s.phase = .beforeConstruct) (hi : s.inbox = e :: rest)
    (h : takeBefore P e { s with inbox := rest } = .done r) : busStep P s = r :=
  busStep_of_fetch_done ((fetch_of_beforeConstruct_cons P hp hi).trans h)

theorem takeBefore_of_ne_construct (he : ∀ mp, e ≠ .construct mp) (s : State) :
    takeBefore P e s = .done (.refused .beforeConstruct) := by
  cases e with
  | construct mp => exact absurd rfl (he mp)
  | transaction w => rfl
  | loadCartridge mp => rfl
  | envStep x y => rfl
  | teardown => rfl

theorem busStep_of_construct {mp : Option CartId} (hp : s.phase = .beforeConstruct)
    (hi : s.inbox = .construct mp :: rest) :
    busStep P s = .next (construct P mp { s with inbox := rest }) :=
  busStep_of_takeBefore_done P hp hi rfl

end Construct

/-- Settles O38: a launch with a mapper given holds the fresh cartridge, and `CONSTRUCT` leads to the launch state. -/
theorem constructGivesLaunchState : Obligations.ConstructGivesLaunchState := by
  intro P mp
  refine ⟨storeByte_launch P mp, rfl, rfl, rfl, rfl, ?_, fun _ _ hp hi => busStep_of_construct P hp hi⟩
  rintro id rfl
  exact ⟨rfl, rfl, freshCart_stor_length P id, cartByte_freshCart P id⟩

/-- Settles O40: `CONSTRUCT` is the one event that a block not yet constructed takes, and a live block refuses it. -/
theorem constructIsFirstAndOnce : Obligations.ConstructIsFirstAndOnce := by
  intro P s e rest hi
  refine ⟨fun hp he => busStep_of_takeBefore_done P hp hi (takeBefore_of_ne_construct P he _), ?_⟩
  rintro hp ⟨mp, rfl⟩
  exact busStep_of_takeLive_done P hp hi rfl

end Sys2Proof.Machine
